-- ==== Sys2Proof/Word.lean ====
section
/-! DEFINITION. The words of the PG4410: bytes, 16-bit words, instants, and the fixed-size bank of like things. -/

namespace Sys2Proof

/-- One byte lane of a memory word. -/
abbrev Byte := BitVec 8

/-- A word of the memory: 16 bits at an even byte address (00_scope.md, Addresses and words). -/
abbrev Word := BitVec 16

/-- An instant of the part's time scale, in whole microseconds (00_scope.md, Time). -/
abbrev Instant := Nat

/-- The byte of the low lane. -/
def loByte (w : Word) : Byte := w.setWidth 8

/-- The byte of the high lane. -/
def hiByte (w : Word) : Byte := (w >>> 8).setWidth 8

/-- The word of its two bytes. -/
def wordOf (hi lo : Byte) : Word := hi ++ lo

/-- A number as a word, modulo 65536. -/
def toWord (n : Nat) : Word := BitVec.ofNat 16 n

/-- A signed number as a 16-bit two's complement word (R186). -/
def signedWord (z : Int) : Word := BitVec.ofInt 16 z

/-- A fixed number `n` of like things, with the proof of its length. Plain data: a list. -/
structure Bank (α : Type) (n : Nat) where
  data : List α
  len : data.length = n
deriving DecidableEq, Repr

namespace Bank

variable {α β : Type} {n : Nat}

/-- The thing at index `i`. -/
def get (b : Bank α n) (i : Fin n) : α := b.data[i.val]'(by rw [b.len]; exact i.isLt)

/-- The bank with `x` at index `i`. -/
def set (b : Bank α n) (i : Fin n) (x : α) : Bank α n := ⟨b.data.set i.val x, by simp [b.len]⟩

/-- The bank with `f` applied at index `i`. -/
def modify (b : Bank α n) (i : Fin n) (f : α → α) : Bank α n := b.set i (f (b.get i))

/-- `n` copies of `x`. -/
def replicate (n : Nat) (x : α) : Bank α n := ⟨List.replicate n x, by simp⟩

/-- The bank whose index `i` holds `f i`. -/
def tabulate (n : Nat) (f : Nat → α) : Bank α n := ⟨(List.range n).map f, by simp⟩

/-- `f` applied to every thing. -/
def map (f : α → β) (b : Bank α n) : Bank β n := ⟨b.data.map f, by simp [b.len]⟩

end Bank

end Sys2Proof
end

