-- ==== Sys2Proof/Syntax.lean ====
section
/-! DEFINITION. The commands of the PG4410: one constructor of Instr for each row of spec/opcode_table.json, with its operands.

Every command carries `t`, the instant at which it is taken (log 1). The table gives its rows no operands of its own: an
operand here is what the row's rule says arrives with the event (an address, lanes, data, a key, a pedal, a depth, bytes, a
pin's level), or an order of two things that the manual leaves open inside one row (log 4). -/

namespace Sys2Proof

/-- The byte lanes a processor-port cycle uses, PBE[1:0]_N (R162). -/
inductive Lanes where
  | low
  | high
  | both
deriving DecidableEq, Repr

/-- What the manual leaves open about one processor-port cycle (log 4).
`cueFirst`: the cycle's BUS test is taken before the cycle's own effect (R160).
`portFirst`: the cycle reaches the free memory port before the part request then pending (R166, R176). -/
structure BusOrder where
  cueFirst : Bool
  portFirst : Bool
deriving DecidableEq, Repr

/-- The cue channels (R150). -/
inductive Channel where
  | a
  | b
deriving DecidableEq, Repr

/-- The pedals 1 damper, 2 soft, 3 sostenuto (R134). -/
inductive Pedal where
  | damper
  | soft
  | sostenuto
deriving DecidableEq, Repr

/-- The key of number `k + 1`: keys are numbered 1 to 88 (00_scope.md, Numbering). -/
abbrev Key := Fin 88

/-- A row of the decode (R23): the instant at which it is taken, and how far it goes. Stages 5 and 6 take the keys in turn,
and other events may be taken between two keys (R38, R82). With a key in `upTo` only the keys before it take their turn and
the stage goes on; with none the stage completes (log 4). -/
structure StagePart where
  t : Instant
  upTo : Option Key := none
deriving DecidableEq, Repr

/-- The commands. The first operand `t` of each is the instant at which it is taken; that of a decode
stage stands in its `StagePart`. -/
inductive Instr where
  /-- R171. A COMMAND write of code 1. `hi`: the byte driven on the high lane, none if that lane is not used. -/
  | load (t : Instant) (o : BusOrder) (hi : Option Byte)
  /-- R63. A COMMAND write of code 2. -/
  | unload (t : Instant) (o : BusOrder) (hi : Option Byte)
  /-- R62. A COMMAND write of code 3. -/
  | start (t : Instant) (o : BusOrder) (hi : Option Byte)
  /-- R52. A COMMAND write of code 4. -/
  | hold (t : Instant) (o : BusOrder) (hi : Option Byte)
  /-- R54. A COMMAND write of code 5. -/
  | resume (t : Instant) (o : BusOrder) (hi : Option Byte)
  /-- R55. A COMMAND write of code 6. -/
  | step (t : Instant) (o : BusOrder) (hi : Option Byte)
  /-- R59. A COMMAND write of code 7. -/
  | stop (t : Instant) (o : BusOrder) (hi : Option Byte)
  /-- R61. A COMMAND write of code 8. -/
  | silence (t : Instant) (o : BusOrder) (hi : Option Byte)
  /-- R158. A COMMAND write of code 9. -/
  | cueClear (t : Instant) (o : BusOrder) (hi : Option Byte)
  /-- R168. A COMMAND write of any other code; a write without the low lane carries code 0. -/
  | unknownCommand (t : Instant) (o : BusOrder) (lanes : Lanes) (data : Word)
  /-- R168. A write of COMMAND_ARG. -/
  | commandArgWrite (t : Instant) (o : BusOrder) (lanes : Lanes) (data : Word)
  /-- R169. Completion of the part's read of COMMAND_ARG. -/
  | commandArgRead (t : Instant)
  /-- R181. A write of RPT_READ. -/
  | rptReadWrite (t : Instant) (o : BusOrder) (lanes : Lanes) (data : Word)
  /-- R159. A write of word `w` of a cue block. -/
  | cueBlockWrite (t : Instant) (o : BusOrder) (ch : Channel) (w : Fin 16) (lanes : Lanes) (data : Word)
  /-- R158. A write of CUE_SEQUENTIAL. -/
  | cueSequentialWrite (t : Instant) (o : BusOrder) (lanes : Lanes) (data : Word)
  /-- R182. A write of NOTICE_ENABLE. -/
  | noticeEnableWrite (t : Instant) (o : BusOrder) (lanes : Lanes) (data : Word)
  /-- R114. A write of key `k`'s word of the key table. -/
  | keyTableWrite (t : Instant) (o : BusOrder) (k : Key) (lanes : Lanes) (data : Word)
  /-- R165. A write of another LIVE field word, at byte offset `off` of the setup page. -/
  | liveFieldWrite (t : Instant) (o : BusOrder) (off : BitVec 12) (lanes : Lanes) (data : Word)
  /-- R164. A write of a LOCKED field word, at byte offset `off` of the setup page. -/
  | lockedFieldWrite (t : Instant) (o : BusOrder) (off : BitVec 12) (lanes : Lanes) (data : Word)
  /-- R164. A write of a part-written word, at byte offset `off` of the setup page. -/
  | partWrittenWordWrite (t : Instant) (o : BusOrder) (off : BitVec 12) (lanes : Lanes) (data : Word)
  /-- R4. A write of a roll slot word; `wa` is the word address PA[20:1]. -/
  | ringWrite (t : Instant) (o : BusOrder) (wa : BitVec 20) (lanes : Lanes) (data : Word)
  /-- R162. Any other write. -/
  | ordinaryWrite (t : Instant) (o : BusOrder) (wa : BitVec 20) (lanes : Lanes) (data : Word)
  /-- R162. A read of any address. -/
  | processorRead (t : Instant) (o : BusOrder) (wa : BitVec 20) (lanes : Lanes)
  /-- R44. The next due arrives in PLAYING. -/
  | lineDue (t : Instant)
  /-- R14. Completion of one word read of the line fetch. -/
  | lineFetchWord (t : Instant)
  /-- R23. Completion of one stage of the decode, or of a part of stage 5 or 6. -/
  | decodeStage (p : StagePart)
  /-- R47. The end of a decode. -/
  | lineBoundary (t : Instant)
  /-- R51. The starvation timer runs out. -/
  | starvationExpiry (t : Instant)
  /-- R71. The expression count reaches 10 ms. -/
  | expressionStep (t : Instant)
  /-- R58. The drain of ENDING. -/
  | endingDrain (t : Instant)
  /-- R58. The completion of ENDING. -/
  | endingSettled (t : Instant)
  /-- R60. The completion of STOPPING. -/
  | stoppingComplete (t : Instant)
  /-- R172. Completion of one setup-load read. -/
  | setupLoadWord (t : Instant)
  /-- R174. The end of LOADING. -/
  | loaded (t : Instant)
  /-- R91. The due instant of the first schedule entry arrives. -/
  | scheduleDispatch (t : Instant)
  /-- R98. The expiry instant of key `k`'s waiting strike arrives. -/
  | dropLate (t : Instant) (k : Key)
  /-- R106. The WIDTH timer of key `k` expires. `expiryFirst`: with MIN_HOLD 0, the expiry of MIN_HOLD is taken before
  the heat test at entry to HOLDING (R129). -/
  | pulseEnd (t : Instant) (k : Key) (expiryFirst : Bool)
  /-- R107. The MIN_HOLD timer of key `k` expires. -/
  | minHoldExpiry (t : Instant) (k : Key)
  /-- R111. The RECOVERY timer of key `k` expires. -/
  | recoveryExpiry (t : Instant) (k : Key)
  /-- R105. The 50 ms timer of key `k` expires. -/
  | keyResetTimerExpiry (t : Instant) (k : Key)
  /-- R125. One heat step. -/
  | heatStep (t : Instant)
  /-- R139. The third byte of a MOVE frame has been sent. -/
  | moveFrameSent (t : Instant)
  /-- R147. The byte in progress at the pedal initialisation ends. -/
  | linkByteEndAbort (t : Instant)
  /-- R141. An ACK frame is completed on PLRX. -/
  | ack (t : Instant) (p : Pedal) (depth : BitVec 4)
  /-- R142. A NAK frame is completed on PLRX. -/
  | nak (t : Instant) (p : Pedal) (depth : BitVec 4)
  /-- R142. The reply timer expires. -/
  | replyTimeoutExpiry (t : Instant)
  /-- R144. An ARRIVED frame is completed on PLRX. -/
  | arrived (t : Instant) (p : Pedal) (depth : BitVec 4)
  /-- R137. A frame of these three bytes is completed on PLRX and ignored. -/
  | invalidFrame (t : Instant) (b1 b2 b3 : Byte)
  /-- R137. A byte with a bad stop bit. -/
  | plrxFramingError (t : Instant)
  /-- R137. More than 200 us have passed since the last byte of a partial frame. -/
  | plrxGapTimeout (t : Instant)
  /-- R144. The travel timer of pedal `p` expires. -/
  | travelExpiry (t : Instant) (p : Pedal)
  /-- R180. Completion of one word write of a report record. -/
  | reportWordWrite (t : Instant)
  /-- R183. Completion of one write of the Status Writer. -/
  | statusWordWrite (t : Instant)
  /-- R121. INH_N becomes asserted, or is released. -/
  | inhNChange (t : Instant) (asserted : Bool)
  /-- R3, R162. RST_N is asserted. -/
  | rstNAssert (t : Instant)
  /-- R161. RST_N is released, with the straps SPB[3:0] and the level of INH_N sampled there. -/
  | rstNRelease (t : Instant) (straps : BitVec 4) (inhAsserted : Bool)
  /-- R122. A 50 us KD period starts. -/
  | kdPeriodStart (t : Instant)
  /-- R137. A well-framed byte, ended at `t`. -/
  | plrxByteReceived (t : Instant) (b : Byte)
  /-- R169. A write of COMMAND taken in IDLE. -/
  | commandWriteInIdle (t : Instant) (o : BusOrder) (lanes : Lanes) (data : Word)
deriving DecidableEq, Repr

end Sys2Proof
end

