-- ==== Sys2Proof/Config.lean ====
section
/-! DEFINITION. What the part fixes once and for all: the constants the manual states as numbers, and the free values for what it leaves open. -/

namespace Sys2Proof.Config

/-- The setup page of strap value SPB begins at SPB times this (R161). -/
def pageStride : Nat := 0x20000
/-- Bytes in the setup page (R161). -/
def pageSize : Nat := 0x1000
/-- Bytes of memory: addresses 0x000000 to 0x1FFFFF (00_scope.md). -/
def memBytes : Nat := 0x200000
/-- Entries the Strike Schedule can hold (R83, R88). -/
def scheduleSize : Nat := 128
/-- Microseconds in one unit of an action duration, 0.1 ms (00_scope.md). -/
def unit : Nat := 100
/-- The 50 ms timer of pin reset and entry to IDLE, in microseconds (R101, R120). -/
def resetTimer : Nat := 50000
/-- Microseconds between heat steps (R125). -/
def heatPeriod : Nat := 1000
/-- Microseconds of PLAYING time between expression steps (R46). -/
def expressionPeriod : Nat := 10000
/-- Microseconds of a KD period (R122). -/
def kdPeriod : Nat := 50
/-- Microseconds of one byte on the pedal link (R136). -/
def byteTime : Nat := 40
/-- Microseconds of one frame on the pedal link (R136). -/
def frameTime : Nat := 120
/-- The longest gap between two bytes of a frame, in microseconds (R137). -/
def gapLimit : Nat := 200
/-- The decode stage that asks the drive levels (R34, R78). -/
def questionStage : Nat := 6
/-- The last decode stage (R23). -/
def lastStage : Nat := 8
/-- The greatest side level (R67). -/
def levelMax : Nat := 496

/-- FREE VALUE (log 11). A track map entry or action curve row is checked when its second word is read (R172); the manual
does not say whether a failure there is reported at the offset of its first word (true) or of its second (false). The
choice may differ with the offset of the second word and with the values of the first word and of the second, in this
order: "the word that holds the bad field" is one of the readings it admits. -/
opaque tableFaultAtFirstWord : Nat → Nat → Nat → Bool

/-- FREE VALUE (log 12). Whether "the first pair found, in map-slot order" (R173, conditions 10 and 11) is the pair with
the lowest lower entry (true) or the pair with the lowest higher entry (false). -/
opaque pairByLowerEntry : Bool

end Sys2Proof.Config
end

