-- ==== Sys2Proof/Machine/Memory.lean ====
section
/-! DEFINITION. The 2 MB static RAM behind the memory port: a canonical list of cells, and the reads and writes of bytes and words. -/

namespace Sys2Proof.Machine

/-- Cells in strictly rising address order, none equal to what an unlisted address reads as. -/
abbrev Memory := List Host.Cell

/-- What an address that is not listed reads as. DESIGN CHOICE, unsafe (log 6): the manual gives the RAM's power-on
contents no value. -/
def unlisted : Byte := 0

/-- The byte address that MA[20:1] and the lanes carry: 21 bits (section 10.8). -/
def busAddr (a : Nat) : Nat := a % Config.memBytes

/-- The byte listed at an address, or the unlisted value. -/
def cellAt : Memory → Nat → Byte
  | [], _ => unlisted
  | (a', b) :: rest, a => if a = a' then b else cellAt rest a

/-- The memory with a byte at an address, in canonical form. -/
def putCell : Memory → Nat → Byte → Memory
  | [], a, b => if b = unlisted then [] else [(a, b)]
  | (a', b') :: rest, a, b =>
    if a < a' then (if b = unlisted then (a', b') :: rest else (a, b) :: (a', b') :: rest)
    else if a = a' then (if b = unlisted then rest else (a, b) :: rest)
    else (a', b') :: putCell rest a b

/-- The canonical form: strictly rising addresses of the 2 MB, no cell at the unlisted value. -/
abbrev Memory.wf (m : Memory) : Prop :=
  m.Pairwise (fun x y => x.1 < y.1) ∧ ∀ c ∈ m, c.1 < Config.memBytes ∧ c.2 ≠ unlisted

/-- One byte read. -/
def readByte (m : Memory) (a : Nat) : Byte := cellAt m (busAddr a)

/-- One byte written. -/
def writeByte (m : Memory) (a : Nat) (b : Byte) : Memory := putCell m (busAddr a) b

/-- The word at an even address: the low lane at the even byte, the high lane at the odd one (R154, log 7). -/
def readWord (m : Memory) (a : Nat) : Word := wordOf (readByte m (a + 1)) (readByte m a)

/-- A word written on both lanes, as every part write is (R166). -/
def writeWord (m : Memory) (a : Nat) (w : Word) : Memory := writeByte (writeByte m a (loByte w)) (a + 1) (hiByte w)

end Sys2Proof.Machine
end

