-- ==== Sys2Proof/Machine/Page.lean ====
section
/-! DEFINITION. The setup page: where each word lies (chapter 12), its class (R161, R163), and the range of each field (section 10.4). -/

namespace Sys2Proof.Machine

/-! ## Offsets (R161, section 12.1 to 12.4) -/

def offCommand : Nat := 0x000
def offArg : Nat := 0x002
def offResult : Nat := 0x004
def offRptRead : Nat := 0x006
def offPlay : Nat := 0x010
def offLastTag : Nat := 0x012
def offExpected : Nat := 0x014
def offHead : Nat := 0x016
def offShift : Nat := 0x018
def offBass : Nat := 0x01A
def offTreble : Nat := 0x01C
def offFiring : Nat := 0x024
def offOccupancy : Nat := 0x026
def offQueue : Nat := 0x028
def offCue : Nat := 0x02A
def offWrite : Nat := 0x02C
def offFlags : Nat := 0x02E
def offLoadFault : Nat := 0x030
def offCount : Nat := 0x03E
def offRingBase : Nat := 0x080
def offRptBase : Nat := 0x086
def offCueA : Nat := 0x100
def offCueB : Nat := 0x120
def offSequential : Nat := 0x140
def offNotice : Nat := 0x0EE
def offHoldDuty : Nat := 0x0E2

/-- Damper, soft, sostenuto: 0, 1, 2. -/
def pedalIndex : Pedal → Fin 3
  | .damper => 0
  | .soft => 1
  | .sostenuto => 2

/-- The number of a pedal, 1 to 3. -/
def pedalNumber (p : Pedal) : Nat := (pedalIndex p).val + 1

/-- The pedal of a number. -/
def pedalOf (n : Nat) : Option Pedal :=
  if n = 1 then some .damper else if n = 2 then some .soft else if n = 3 then some .sostenuto else none

def allPedals : List Pedal := [.damper, .soft, .sostenuto]

/-- Every key, in ascending order. -/
def allKeys : List Key := (List.range 88).map (Fin.ofNat 88)

/-- The number of a key, 1 to 88. -/
def keyNumber (k : Key) : Nat := k.val + 1

/-- The status block word of a pedal (section 12.4). -/
def offPedal (p : Pedal) : Nat := 0x01E + 2 * (pedalIndex p).val
/-- Word `i` of the sostenuto set (section 12.4). -/
def offSostenuto (i : Nat) : Nat := 0x032 + 2 * i
/-- Key status word k (section 11.6). -/
def offKeyStatus (k : Key) : Nat := 0x600 + 2 * k.val
/-- Key k's entry of the key table (section 12.2). -/
def offKeyTable (k : Key) : Nat := 0x200 + 2 * k.val
/-- The first word of a cue block (section 12.2). -/
def offBlock : Channel → Nat
  | .a => offCueA
  | .b => offCueB

/-- Even offsets from `lo` up to and including `hi`. -/
def evens (lo hi : Nat) : List Nat := (List.range ((hi - lo) / 2 + 1)).map (fun i => lo + 2 * i)

/-- Every status block word and every key status word, in ascending offset order (R183). -/
def statusOffsets : List Nat := evens 0x010 0x07E ++ evens 0x600 0x6AE

/-- The order in which a load reads the field words (R172): RPT_READ, then upward from 0x080. -/
def loadOrder : List Nat :=
  offRptRead :: evens 0x080 0x0C2 ++ evens 0x0E0 0x0EE ++ evens 0x100 0x140 ++ evens 0x180 0x1FE
    ++ evens 0x200 0x2AE ++ evens 0x300 0x4BE ++ evens 0x500 0x57E

/-! ## Classes of word (R161, R163) -/

/-- The classes of word that R163 tells apart. -/
inductive PageWord where
  | command
  | commandArg
  | locked
  | live
  | partWritten
  | ordinary
deriving DecidableEq, Repr

def inRange (lo x hi : Nat) : Bool := decide (lo ≤ x) && decide (x ≤ hi)

/-- The class of the word at an even offset of the page. -/
def pageWord (off : Nat) : PageWord :=
  if off = offCommand then .command
  else if off = offArg then .commandArg
  else if off = offResult then .partWritten
  else if off = offRptRead then .live
  else if inRange 0x010 off 0x07E then .partWritten
  else if inRange 0x080 off 0x0C2 then .locked
  else if inRange 0x0E0 off 0x0EE then .live
  else if inRange 0x100 off 0x140 then .live
  else if inRange 0x180 off 0x1FE then .live
  else if inRange 0x200 off 0x2AE then .live
  else if inRange 0x300 off 0x4BE then .locked
  else if inRange 0x500 off 0x57E then .locked
  else if inRange 0x600 off 0x6AE then .partWritten
  else .ordinary

/-- The LIVE words that no other row of the table names: TEMPO to ACCENT_TREBLE and the velocity maps. -/
def isOtherLive (off : Nat) : Bool := inRange 0x0E0 off 0x0EC || inRange 0x180 off 0x1FE

/-- The key whose key table word lies at an offset. -/
def keyAt (off : Nat) : Key := Fin.ofNat 88 ((off - 0x200) / 2)

/-- The command code of a COMMAND write: its low byte, or 0 if the low lane is not used (R168). -/
def commandCode (lanes : Lanes) (data : Word) : Byte :=
  match lanes with
  | .high => 0
  | .low => loByte data
  | .both => loByte data

/-! ## Ranges (section 10.4, chapter 12) -/

/-- The range of the one-word scalar fields (section 10.4). -/
def scalarRange (off : Nat) : Nat × Nat :=
  match off with
  | 0x084 => (16, 128)      -- RING_SLOTS
  | 0x08A => (16, 256)      -- RPT_SIZE
  | 0x08C => (200, 20000)   -- LINE_INTERVAL
  | 0x08E => (100, 1500)    -- LOOKAHEAD
  | 0x090 => (1, 4)         -- OPEN_CONFIRM
  | 0x092 => (1, 4)         -- CLOSE_CONFIRM
  | 0x094 => (1, 4)         -- HOLE_MIN
  | 0x096 => (0, 63)        -- EDGE_NOMINAL
  | 0x098 => (1, 16)        -- TRACK_PERSIST
  | 0x09A => (1, 64)        -- PAPER_LIMIT
  | 0x09C => (2, 88)        -- SPLIT_KEY
  | 0x09E => (1, 16)        -- FIRE_BUDGET
  | 0x0A0 => (10, 500)      -- RECOVERY
  | 0x0A2 => (0, 500)       -- MIN_HOLD
  | 0x0A4 => (0, 500)       -- LATE_LIMIT
  | 0x0AE => (1, 14)        -- HALF_DEPTH
  | 0x0B0 => (1, 15)        -- SUSTAIN_DEPTH
  | 0x0B2 => (0, 7)         -- PEDAL_RETRIES
  | 0x0B4 => (10, 200)      -- REPLY_TIMEOUT
  | 0x0B6 => (10, 2000)     -- TRAVEL_LIMIT
  | 0x0B8 => (0, 5000)      -- STARVE_LIMIT
  | 0x0BA => (1, 255)       -- HEAT_GAIN
  | 0x0BC => (1, 255)       -- COOL_RATE
  | 0x0BE => (1, 65534)     -- WARM_LIMIT
  | 0x0C0 => (2, 65535)     -- HOT_LIMIT
  | 0x0C2 => (0, 10)        -- EXPR_BASE
  | 0x0E0 => (25, 400)      -- TEMPO
  | 0x0E2 => (1, 15)        -- HOLD_DUTY
  | 0x0E4 => (1, 32)        -- SLOW_RATE
  | 0x0E6 => (1, 64)        -- FAST_RATE
  | 0x0E8 => (1, 128)       -- SETTLE_RATE
  | 0x0EA => (0, 31)        -- ACCENT_BASS
  | 0x0EC => (0, 31)        -- ACCENT_TREBLE
  | 0x0EE => (0, 63)        -- NOTICE_ENABLE: bits 6-15 must be 0
  | _ => (0, 65535)         -- RELEASE_LEAD and PEDAL_LEAD: condition 7 of R173

/-- Every field of a key table word within its range (section 12.2). -/
def keyWordOk (w : Nat) : Bool :=
  decide (w % 4 ≠ 3) && decide (w / 4 % 4 ≠ 3) && decide (w / 16 % 32 ≤ 16) && decide (w / 16384 = 0)

/-- Word `n` of a cue block by the codes and ranges of its own field (section 12.2, R186). -/
def cueWordOk (n w : Nat) : Bool :=
  match n with
  | 0 => decide (w ≤ 2)                    -- KIND
  | 1 => decide (w ≤ 1)                    -- ACTION
  | 2 => decide (w ≤ 1)                    -- WHEN
  | 5 => decide (w ≤ 111) || decide (w = 0xFFFF)  -- track slot
  | 6 => decide (w ≤ 2)                    -- cycle kind
  | 8 => decide (w < 32)                   -- address value, high word
  | 10 => decide (w < 32)                  -- address mask, high word
  | _ => true

/-- The conditions of R159 on a whole cue block, whose words are `word 0` to `word 15`. -/
def cueBlockOk (word : Nat → Nat) : Bool :=
  (List.range 16).all (fun n => cueWordOk n (word n)) && (decide (word 2 ≠ 0) || decide (word 5 = 0xFFFF))

/-- The number of a word within its cue block. -/
def cueWordIndex (off : Nat) : Nat := (off - 0x100) % 0x20 / 2

/-- A LIVE word against the ranges of its own word's fields (R175): RPT_READ only as a 16-bit value, a cue block word by
its own field alone. -/
def liveWordOk (off : Nat) (w : Word) : Bool :=
  if off = offRptRead then true
  else if off = offSequential then decide (w.toNat ≤ 1)
  else if inRange 0x100 off 0x13E then cueWordOk (cueWordIndex off) w.toNat
  else if inRange 0x180 off 0x1FE then inRange 1 w.toNat 127
  else if inRange 0x200 off 0x2AE then keyWordOk w.toNat
  else inRange (scalarRange off).1 w.toNat (scalarRange off).2

/-- An assigned or unassigned track map entry against R172 and section 12.2. -/
def mapEntryOk (fn w1 : Nat) : Bool :=
  decide (fn ≤ 108) &&
    (decide (fn = 0) ||
      (inRange 1 (w1 / 256 % 8) 6 && decide (8 ≤ w1 % 256) && decide (w1 % 256 + w1 / 256 % 8 ≤ 248) && decide (w1 / 2048 = 0)))

/-- An action curve row against R172. -/
def curveRowOk (width lead : Nat) : Bool := inRange 5 width 200 && decide (lead ≤ 1500)

/-- The offset reported when the two-word table entry whose second word lies at `off` fails: that of its first word or of
its second, by a free choice that may depend on both words (log 11). -/
def tableFaultOffset (off first second : Nat) : Nat :=
  if Config.tableFaultAtFirstWord off first second then off - 2 else off

/-- The check that a load makes when it has read the word at `off` (R172, R186), over the shadow's words `word` with the
word read already in place: none if it passes, the offset to report if it fails. -/
def loadWordFault (word : Nat → Word) (off : Nat) : Option Nat :=
  let w := (word off).toNat
  if off = 0x080 ∨ off = 0x086 then none
  else if off = 0x082 then if w < 32 ∧ (word 0x080).toNat % 4 = 0 then none else some 0x080
  else if off = 0x088 then if w < 32 ∧ (word 0x086).toNat % 2 = 0 then none else some 0x086
  else if inRange 0x300 off 0x4BE then
    if off % 4 = 0 then none
    else if mapEntryOk (word (off - 2)).toNat w then none else some (tableFaultOffset off (word (off - 2)).toNat w)
  else if inRange 0x500 off 0x57E then
    if off % 4 = 0 then none
    else if curveRowOk (word (off - 2)).toNat w then none else some (tableFaultOffset off (word (off - 2)).toNat w)
  else if inRange 0x100 off 0x13E && (cueWordIndex off == 8 || cueWordIndex off == 10) then
    if cueWordOk (cueWordIndex off) w then none else some (off - 2)
  else if liveWordOk off (word off) then none else some off

end Sys2Proof.Machine
end

