-- ==== Sys2Proof/Machine/State.lean ====
section
/-! DEFINITION. State: every piece of state the manual gives the PG4410, as plain data, with the faults, the refusals and the state after reset. -/

namespace Sys2Proof.Machine

/-- A fault would be an end of the part's behaviour. The manual describes none (INVENTORY.md, Faults), so there is no
constructor: nothing raises one. Safe: no claim can rest on a fault. -/
inductive Fault where
deriving DecidableEq, Repr

/-- The refusals. -/
inductive Refusal where
  /-- Raised by exec's arm of a command that has no meaning yet; no arm raises it now. Safe: a run stops there. -/
  | notModelled (mnemonic : String)
deriving DecidableEq, Repr

/-! ## Roll Ring Monitor (R3) -/

/-- The slot states (section 1.3). -/
inductive SlotState where
  | free
  | filling
  | ready
  | current
deriving DecidableEq, Repr

/-- A slot record (R3). -/
structure Slot where
  state : SlotState := .free
  /-- The written-word set: word numbers from 0 to 16 in rising order. -/
  written : List Nat := []
  overrunNoted : Bool := false
deriving DecidableEq, Repr

/-- The fetch in flight: a slot and the number of words read (R3). -/
structure Fetch where
  slot : Fin 128
  count : Nat
  /-- The line was fed from STARVED, or takes the due of one so fed and discarded: its decode finds the level frozen at
  starvation (R79, log 35). -/
  levelFrozen : Bool := false
deriving DecidableEq, Repr

/-- The Roll Ring Monitor (R3). -/
structure Ring where
  slots : Bank Slot 128 := Bank.replicate 128 {}
  head : Fin 128 := 0
  fetch : Option Fetch := none
  /-- The line buffer: the words read so far, tag first. -/
  buffer : List Word := []
  base : Nat := 0
  nslots : Nat := 0
deriving DecidableEq, Repr

/-! ## Track Reader (R22, R24, R29, R32) -/

/-- One entry of the track map copy: function 0 is UNASSIGNED (section 2.1). -/
structure MapEntry where
  fn : Nat := 0
  first : Nat := 0
  width : Nat := 0
deriving DecidableEq, Repr

/-- One row of the track state table (R29). -/
structure TrackRow where
  isOpen : Bool := false
  count : Nat := 0
deriving DecidableEq, Repr

/-- A hold request of the Track Reader (R24). -/
inductive TrackHold where
  | tracking
  | paper
deriving DecidableEq, Repr

/-- The decode in progress (R23). -/
structure Decode where
  /-- The stage that completes next, 1 to 8; 9 when stage 8 is finished and the boundary is still to be taken. -/
  stage : Nat := 1
  /-- Map slots whose track opened in this line (R29). -/
  opened : List Nat := []
  /-- Map slots whose track closed in this line (R29). -/
  closed : List Nat := []
  /-- The END indication marked for this line (R35). -/
  endMark : Bool := false
  /-- STOP or SILENCE was taken during this decode (R39). -/
  muted : Bool := false
  /-- The keys, counted upward from key 1, whose turn in stage 5 or 6 has passed while that stage is up (R38, R82). -/
  reached : Nat := 0
  /-- The stage before whose completion no expression step is given, since the line finds the frozen level: the last stage
  for a line held CURRENT and decoded at RESUME, the stage of the drive level questions for a line fed from STARVED, 0 for
  any other line (R79, log 35). -/
  frozenThrough : Nat := 0
deriving DecidableEq, Repr

/-- The Track Reader (R22, R23, R24, R29, R32). -/
structure Track where
  map : Bank MapEntry 112 := Bank.replicate 112 {}
  holeMin : Nat := 0
  openConfirm : Nat := 0
  closeConfirm : Nat := 0
  edgeNominal : Nat := 0
  trackPersist : Nat := 0
  paperLimit : Nat := 0
  shift : Int := 0
  candidate : Option Int := none
  candidateCount : Nat := 0
  noEdge : Nat := 0
  pendingHold : Option TrackHold := none
  rows : Bank TrackRow 112 := Bank.replicate 112 {}
  serials : Bank Byte 88 := Bank.replicate 88 0
  lastTag : Word := 0
  decode : Option Decode := none
deriving DecidableEq, Repr

/-! ## Roll Clock (R40) -/

/-- The playback states (R40). -/
inductive Playback where
  | idle
  | loading
  | ready
  | playing
  | starved
  | held
  | ending
  | stopping
deriving DecidableEq, Repr

/-- The causes (R40). -/
inductive Cause where
  | noCause
  | command
  | cueA
  | cueB
  | tracking
  | paper
  | ending
  | starvation
  | silence
  | loadFault
deriving DecidableEq, Repr

/-- The playback record (R40). -/
structure Clock where
  state : Playback := .idle
  cause : Cause := .noCause
  expected : Word := 0
  nextDue : Option Instant := none
  waitingDue : Option Instant := none
  lineInProgress : Bool := false
  /-- The due instant given to the line in progress (R44, R50, R54, R55). -/
  lineDue : Option Instant := none
  pendingHold : Option Cause := none
  stepInProgress : Bool := false
  /-- The starvation timer: its expiry instant, none when stopped. -/
  starveTimer : Option Instant := none
  starvedSince : Option Instant := none
  /-- The expression count, in microseconds of PLAYING time (R46). -/
  exprCount : Nat := 0
  /-- PLAYING time that had passed beyond the value at which the count froze (R82): it is counted when PLAYING resumes, so
  that PLAYING time adds up (R46, log 22). -/
  exprOwed : Nat := 0
  drained : Bool := false
deriving DecidableEq, Repr

/-! ## Expression Unit (R67, R80, R81) -/

/-- A side record (R67). -/
structure Side where
  level : Nat := 0
  step : Nat := 0
  target : Nat := 0
  swell : Bool := false
  fade : Bool := false
  rush : Bool := false
  accent : Bool := false
deriving DecidableEq, Repr

/-- The SIDE field of a key (R66). -/
inductive SideChoice where
  | auto
  | bass
  | treble
deriving DecidableEq, Repr

/-- A row of the action curve (R80), in units of 0.1 ms. -/
structure CurveRow where
  width : Nat := 0
  lead : Nat := 0
deriving DecidableEq, Repr

/-- The copies of LOCKED fields taken at validation success (R67). -/
structure ExprCopies where
  exprBase : Nat
  splitKey : Nat
  curve : Bank CurveRow 32
deriving DecidableEq, Repr

/-- TRIM and SIDE of one key in the decode sample (R81). -/
structure KeyVoice where
  trim : Int := 0
  side : SideChoice := .auto
deriving DecidableEq, Repr

/-- The decode sample (R81). -/
structure Sample where
  normal : Bank Nat 32
  softMap : Bank Nat 32
  accentBass : Nat
  accentTreble : Nat
  voices : Bank KeyVoice 88
deriving DecidableEq, Repr

/-- The Expression Unit (R67). -/
structure Expression where
  bass : Side := {}
  treble : Side := {}
  soft : Bool := false
  copies : Option ExprCopies := none
  sample : Option Sample := none
deriving DecidableEq, Repr

/-! ## Strike Schedule and Firing Arbiter (R83, R93) -/

/-- What an entry does, with its subject (R83). -/
inductive Action where
  | strike (k : Key) (level : Nat) (serial : Byte)
  | release (k : Key) (serial : Byte)
  | move (p : Pedal) (depth : Nat)
deriving DecidableEq, Repr

/-- A schedule entry (R83). -/
structure Entry where
  act : Action
  due : Instant
  tag : Word
deriving DecidableEq, Repr

/-- A waiting strike (R93). -/
structure Waiting where
  key : Key
  due : Instant
  level : Nat
  serial : Byte
  tag : Word
  expiry : Instant
deriving DecidableEq, Repr

/-- The Firing Arbiter (R93). -/
structure Fire where
  queue : List Waiting := []
  count : Nat := 0
deriving DecidableEq, Repr

/-! ## Key Action Channels and heat (R101, R124) -/

/-- The key states (R101). -/
inductive KeyState where
  | rest
  | firing
  | holding
  | releasing
  | locked
deriving DecidableEq, Repr

/-- The SOURCE applied to a key (R102). -/
inductive Source where
  | timer
  | off
  | direct
deriving DecidableEq, Repr

/-- The key record (R101) with the key's heat (R124) and its KD output (R122). -/
structure KeyRec where
  state : KeyState := .rest
  note : Option Byte := none
  releaseOwed : Bool := false
  nextNote : Option Byte := none
  nextOwed : Bool := false
  reduced : Bool := false
  holdStart : Instant := 0
  /-- The action timer: its expiry instant, none when stopped. -/
  timer : Option Instant := none
  duty : Nat := 0
  source : Source := .timer
  directDuty : Nat := 0
  kd : Nat := 0
  heat : Nat := 0
deriving DecidableEq, Repr

/-- The Coil Heat Model's copies and the instant of the next heat step (R124, R125). -/
structure Heat where
  gain : Nat := 1
  cool : Nat := 255
  warm : Nat := 65534
  hot : Nat := 65535
  sustain : Nat := 15
  next : Instant := 0
deriving DecidableEq, Repr

/-! ## Pedal Link Controller (R134, R138) -/

/-- The motion of a pedal (R134). -/
inductive Motion where
  | atRest
  | moving
  | fault
deriving DecidableEq, Repr

/-- A move: a depth and a due instant (R134). -/
structure Move where
  depth : Nat
  due : Instant
deriving DecidableEq, Repr

/-- A pedal record (R134). -/
structure PedalRec where
  depth : Nat := 0
  motion : Motion := .atRest
  target : Nat := 0
  waiting : Option Move := none
  retries : Nat := 0
  /-- The travel timer: its expiry instant, none when stopped. -/
  travel : Option Instant := none
deriving DecidableEq, Repr

/-- The frame in flight: a pedal and a depth (R138). -/
structure Frame where
  pedal : Pedal
  depth : Nat
deriving DecidableEq, Repr

/-- The link state with the frame in flight (R138). -/
inductive Link where
  | idle
  /-- SENDING since `start`; `abortAt`: the end of the byte in progress, once the initialisation has aborted it (R147). -/
  | sending (f : Frame) (start : Instant) (abortAt : Option Instant)
  /-- AWAITING, with the reply timer's expiry instant. -/
  | awaiting (f : Frame) (expiry : Instant)
deriving DecidableEq, Repr

/-- The Pedal Link Controller (R134, R137, R138, R145). -/
structure PedalUnit where
  recs : Bank PedalRec 3 := Bank.replicate 3 {}
  maxRetries : Nat := 0
  replyTimeout : Nat := 200
  travelLimit : Nat := 2000
  link : Link := .idle
  /-- The bytes of the frame being received (R137). -/
  rxBytes : List Byte := []
  /-- When the last received byte ended (R137). -/
  rxEnd : Instant := 0
  /-- The sostenuto set, in key order (R145). -/
  sost : List Key := []
deriving DecidableEq, Repr

/-! ## Cue Unit (R150, R156) -/

/-- The Cue Unit. -/
structure Cue where
  flagA : Bool := false
  flagB : Bool := false
  bArmed : Bool := false
  /-- The line held CURRENT is exempt from the BEFORE test (R156). -/
  exempt : Bool := false
deriving DecidableEq, Repr

/-! ## Processor-port cycles, the Memory Port Arbiter and the Setup Shadow (R162, R166, R167) -/

/-- One processor-port cycle (R162). -/
structure ProcCycle where
  isWrite : Bool
  wa : BitVec 20
  lanes : Lanes
  data : Word
  order : BusOrder
deriving DecidableEq, Repr

/-- A part access of one word that owns the memory port (R166). A write carries the value taken at its grant. `live` is no
once the request was abandoned after the grant: the access completes and its word is dropped (R20, R174, R178). -/
inductive Access where
  | lineFetch (slot : Fin 128) (addr : Nat) (live : Bool)
  | setupLoad (off : Nat) (live : Bool)
  | argRead
  | reportWord (addr : Nat) (w : Word) (live : Bool)
  | statusWord (off : Nat) (w : Word)
deriving DecidableEq, Repr

/-- The Memory Port Arbiter (R166): the current owner, and the processor cycle that waits with PWAIT_N asserted. -/
structure Arbiter where
  owner : Option Access := none
  waiting : Option ProcCycle := none
deriving DecidableEq, Repr

/-- The outcomes of a command (R168). -/
inductive Reply where
  | accepted
  | refusedState
  | refusedBusy
  | refusedArg
  | refusedUnknown
  | refusedEmpty
deriving DecidableEq, Repr

/-- The pending result (R170): the code echo, the outcome and the command count. -/
structure Result where
  code : Nat
  reply : Reply
  count : Byte
deriving DecidableEq, Repr

/-- The Setup Shadow (R167). -/
structure Shadow where
  loaded : Bool := false
  /-- The copies of the field words; the word at byte offset `off` has index `off / 2`. -/
  words : Bank Word 704 := Bank.replicate 704 0
  /-- The read set of the load in progress: the first `readCount` words of loadOrder. -/
  readCount : Nat := 0
  arg : Word := 0
  count : Byte := 0
  result : Option Result := none
  loadFault : Nat := 0
  /-- The COMMAND write held while COMMAND_ARG is read (R169). -/
  held : Option ProcCycle := none
deriving DecidableEq, Repr

/-! ## Report Writer (R178) -/

/-- The report classes (section 11.4). -/
inductive ReportClass where
  | playback
  | roll
  | action
  | pedal
  | cue
  | setup
deriving DecidableEq, Repr

/-- The record kinds (section 11.4). -/
inductive ReportKind where
  | loaded
  | started
  | held
  | resumed
  | starved
  | fed
  | ended
  | stopped
  | unloaded
  | inhibit
  | torn
  | overrun
  | sequence
  | check
  | shift
  | cueMark
  | dropFull
  | dropLate
  | dropHot
  | earlyRelease
  | holdReduced
  | pedalFault
  | sostenutoCapture
  | sostenutoClear
  | matched
  | withheld
  | range
deriving DecidableEq, Repr

/-- A report record (R179, R184). -/
structure Record where
  kind : ReportKind
  tag : Word
  subject : Word
  detail : Word
deriving DecidableEq, Repr

/-- The record in progress and the words of it written, 0 to 3 (R178). -/
structure InProgress where
  record : Record
  written : Nat
deriving DecidableEq, Repr

/-- The ring copies (R178). -/
structure ReportRing where
  base : Nat
  size : Nat
deriving DecidableEq, Repr

/-- The Report Writer (R178). -/
structure Report where
  wr : Nat := 0
  queue : List Record := []
  current : Option InProgress := none
  classes : Bank (Option ReportClass) 256 := Bank.replicate 256 none
  lost : Bool := false
  copies : Option ReportRing := none
  active : Bool := false
  /-- The read index in force (R181): RPT_READ as last taken by a write or by a validation success (log 33). -/
  readIndex : Nat := 0
  /-- The enables in force (R182): NOTICE_ENABLE as last taken by a write or by a validation success (log 33). -/
  enables : Nat := 0
deriving DecidableEq, Repr

/-- The state of the PG4410 and of the memory behind it. -/
structure State where
  now : Instant := 0
  pending : List Instr := []
  rst : Bool := true
  inh : Bool := false
  ntc : Bool := false
  pwait : Bool := false
  spb : BitVec 4 := 0
  pd : Word := 0
  kdNext : Instant := 0
  mem : Memory := []
  arb : Arbiter := {}
  ring : Ring := {}
  track : Track := {}
  clock : Clock := {}
  expr : Expression := {}
  sched : List Entry := []
  fire : Fire := {}
  keys : Bank KeyRec 88 := Bank.replicate 88 {}
  heat : Heat := {}
  pedals : PedalUnit := {}
  cue : Cue := {}
  shadow : Shadow := {}
  report : Report := {}
  /-- The Status Writer's update list: offsets of part-written words (R183). -/
  updates : List Nat := []
deriving DecidableEq, Repr

/-- Every block at its pin-reset values with RST_N asserted; the memory, the time scale, the queue, the sampled straps and
the word last driven on PD are kept (R3 and the pin-reset values of every chapter; log 15). -/
def State.inReset (s : State) : State :=
  { now := s.now, pending := s.pending, mem := s.mem, spb := s.spb, pd := s.pd }

/-- The release of RST_N at `now` (R161, R101, R122, R125, R183): the straps and INH_N are sampled, the keys' 50 ms
timers, the heat steps and the KD periods run from here, and every status word joins the update list. -/
def State.released (s : State) (straps : BitVec 4) (inhAsserted : Bool) : State :=
  { s.inReset with
    rst := false
    spb := straps
    inh := inhAsserted
    kdNext := s.now + Config.kdPeriod
    keys := Bank.replicate 88 { timer := some (s.now + Config.resetTimer) }
    heat := { next := s.now + Config.heatPeriod }
    updates := statusOffsets }

/-- The part right after the release of RST_N, with straps 0 and INH_N released (log 8), at instant 0, with nothing
listed in memory and an empty queue. -/
def State.reset : State := State.released {} 0 false

end Sys2Proof.Machine
end

