-- ==== Sys2Proof/Machine/Flags.lean ====
section
/-! DEFINITION. Codes, setup fields, status words and conditions: everything that is read off the state and kept nowhere. -/

namespace Sys2Proof.Machine

/-! ## Codes (section 11.4, 12.3, 12.4) -/

def playbackCode : Playback → Nat
  | .idle => 0
  | .loading => 1
  | .ready => 2
  | .playing => 3
  | .starved => 4
  | .held => 5
  | .ending => 6
  | .stopping => 7

def causeCode : Cause → Nat
  | .noCause => 0
  | .command => 1
  | .cueA => 2
  | .cueB => 3
  | .tracking => 4
  | .paper => 5
  | .ending => 6
  | .starvation => 7
  | .silence => 8
  | .loadFault => 9

def keyStateCode : KeyState → Nat
  | .rest => 0
  | .firing => 1
  | .holding => 2
  | .releasing => 3
  | .locked => 4

def motionCode : Motion → Nat
  | .atRest => 0
  | .moving => 1
  | .fault => 2

def replyCode : Reply → Nat
  | .accepted => 0
  | .refusedState => 1
  | .refusedBusy => 2
  | .refusedArg => 3
  | .refusedUnknown => 4
  | .refusedEmpty => 5

def classCode : ReportClass → Nat
  | .playback => 0
  | .roll => 1
  | .action => 2
  | .pedal => 3
  | .cue => 4
  | .setup => 5

/-- The class of a record kind (section 11.4). -/
def kindClass : ReportKind → ReportClass
  | .loaded => .playback
  | .started => .playback
  | .held => .playback
  | .resumed => .playback
  | .starved => .playback
  | .fed => .playback
  | .ended => .playback
  | .stopped => .playback
  | .unloaded => .playback
  | .inhibit => .playback
  | .torn => .roll
  | .overrun => .roll
  | .sequence => .roll
  | .check => .roll
  | .shift => .roll
  | .cueMark => .roll
  | .dropFull => .action
  | .dropLate => .action
  | .dropHot => .action
  | .earlyRelease => .action
  | .holdReduced => .action
  | .pedalFault => .pedal
  | .sostenutoCapture => .pedal
  | .sostenutoClear => .pedal
  | .matched => .cue
  | .withheld => .setup
  | .range => .setup

/-- The code of a record kind (section 11.4). -/
def kindCode : ReportKind → Nat
  | .loaded => 1
  | .started => 2
  | .held => 3
  | .resumed => 4
  | .starved => 5
  | .fed => 6
  | .ended => 7
  | .stopped => 8
  | .unloaded => 9
  | .inhibit => 10
  | .torn => 1
  | .overrun => 2
  | .sequence => 3
  | .check => 4
  | .shift => 5
  | .cueMark => 6
  | .dropFull => 1
  | .dropLate => 2
  | .dropHot => 3
  | .earlyRelease => 4
  | .holdReduced => 5
  | .pedalFault => 1
  | .sostenutoCapture => 2
  | .sostenutoClear => 3
  | .matched => 1
  | .withheld => 1
  | .range => 2

/-- EARLY_RELEASE details (R184). -/
def earlyHot : Word := 1
def earlyWarmSustained : Word := 2
def earlyScheduleFull : Word := 3
/-- PEDAL_FAULT details (R184). -/
def faultRetries : Word := 1
def faultTravel : Word := 2

/-- Word `n` of a report record (R184): class and kind, tag, subject, detail. -/
def recordWord (r : Record) (n : Nat) : Word :=
  if n = 0 then toWord (256 * classCode (kindClass r.kind) + kindCode r.kind)
  else if n = 1 then r.tag
  else if n = 2 then r.subject
  else r.detail

/-- The RESULT word (section 12.3). -/
def resultWord (r : Result) : Word := toWord (r.code + 16 * replyCode r.reply + 256 * r.count.toNat)

/-! ## Setup fields (section 12.1, 12.2) -/

/-- The shadow's word at a byte offset of the page. -/
def Shadow.word (sh : Shadow) (off : Nat) : Word := sh.words.get (Fin.ofNat 704 (off / 2))

/-- The shadow with the word at a byte offset replaced. -/
def Shadow.put (sh : Shadow) (off : Nat) (w : Word) : Shadow :=
  { sh with words := sh.words.set (Fin.ofNat 704 (off / 2)) w }

/-- A setup field held in one word. -/
def Shadow.nat (sh : Shadow) (off : Nat) : Nat := (sh.word off).toNat

/-- A 21-bit address held in two words, low word first (R186). -/
def Shadow.addr (sh : Shadow) (off : Nat) : Nat := sh.nat off + 65536 * sh.nat (off + 2)

def Shadow.ringBase (sh : Shadow) : Nat := sh.addr 0x080
def Shadow.ringSlots (sh : Shadow) : Nat := sh.nat 0x084
def Shadow.rptBase (sh : Shadow) : Nat := sh.addr 0x086
def Shadow.rptSize (sh : Shadow) : Nat := sh.nat 0x08A
def Shadow.lineInterval (sh : Shadow) : Nat := sh.nat 0x08C
def Shadow.lookahead (sh : Shadow) : Nat := sh.nat 0x08E
def Shadow.openConfirm (sh : Shadow) : Nat := sh.nat 0x090
def Shadow.closeConfirm (sh : Shadow) : Nat := sh.nat 0x092
def Shadow.holeMin (sh : Shadow) : Nat := sh.nat 0x094
def Shadow.edgeNominal (sh : Shadow) : Nat := sh.nat 0x096
def Shadow.trackPersist (sh : Shadow) : Nat := sh.nat 0x098
def Shadow.paperLimit (sh : Shadow) : Nat := sh.nat 0x09A
def Shadow.splitKey (sh : Shadow) : Nat := sh.nat 0x09C
def Shadow.fireBudget (sh : Shadow) : Nat := sh.nat 0x09E
def Shadow.recovery (sh : Shadow) : Nat := sh.nat 0x0A0
def Shadow.minHold (sh : Shadow) : Nat := sh.nat 0x0A2
def Shadow.lateLimit (sh : Shadow) : Nat := sh.nat 0x0A4
def Shadow.releaseLead (sh : Shadow) : Nat := sh.nat 0x0A6
def Shadow.pedalLead (sh : Shadow) (p : Pedal) : Nat := sh.nat (0x0A8 + 2 * (pedalIndex p).val)
def Shadow.halfDepth (sh : Shadow) : Nat := sh.nat 0x0AE
def Shadow.sustainDepth (sh : Shadow) : Nat := sh.nat 0x0B0
def Shadow.pedalRetries (sh : Shadow) : Nat := sh.nat 0x0B2
def Shadow.replyTimeout (sh : Shadow) : Nat := sh.nat 0x0B4
def Shadow.travelLimit (sh : Shadow) : Nat := sh.nat 0x0B6
def Shadow.starveLimit (sh : Shadow) : Nat := sh.nat 0x0B8
def Shadow.heatGain (sh : Shadow) : Nat := sh.nat 0x0BA
def Shadow.coolRate (sh : Shadow) : Nat := sh.nat 0x0BC
def Shadow.warmLimit (sh : Shadow) : Nat := sh.nat 0x0BE
def Shadow.hotLimit (sh : Shadow) : Nat := sh.nat 0x0C0
def Shadow.exprBase (sh : Shadow) : Nat := sh.nat 0x0C2
def Shadow.tempo (sh : Shadow) : Nat := sh.nat 0x0E0
def Shadow.holdDuty (sh : Shadow) : Nat := sh.nat offHoldDuty
def Shadow.slowRate (sh : Shadow) : Nat := sh.nat 0x0E4
def Shadow.fastRate (sh : Shadow) : Nat := sh.nat 0x0E6
def Shadow.settleRate (sh : Shadow) : Nat := sh.nat 0x0E8
def Shadow.accentBass (sh : Shadow) : Nat := sh.nat 0x0EA
def Shadow.accentTreble (sh : Shadow) : Nat := sh.nat 0x0EC
def Shadow.notice (sh : Shadow) : Nat := sh.nat offNotice
def Shadow.rptRead (sh : Shadow) : Nat := sh.nat offRptRead
def Shadow.sequential (sh : Shadow) : Bool := decide (sh.nat offSequential = 1)
def Shadow.normalMap (sh : Shadow) (i : Nat) : Nat := sh.nat (0x180 + 2 * i)
def Shadow.softMap (sh : Shadow) (i : Nat) : Nat := sh.nat (0x1C0 + 2 * i)
def Shadow.mapEntry (sh : Shadow) (slot : Nat) : MapEntry :=
  let w1 := sh.nat (0x302 + 4 * slot)
  { fn := sh.nat (0x300 + 4 * slot), first := w1 % 256, width := w1 / 256 % 8 }
def Shadow.curveRow (sh : Shadow) (r : Nat) : CurveRow :=
  { width := sh.nat (0x500 + 4 * r), lead := sh.nat (0x502 + 4 * r) }
def Shadow.cueWord (sh : Shadow) (ch : Channel) (n : Nat) : Word := sh.word (offBlock ch + 2 * n)

/-- SOURCE of a key table word (section 12.2). -/
def keyWordSource (w : Word) : Source :=
  if w.toNat % 4 = 0 then .timer else if w.toNat % 4 = 1 then .off else .direct

/-- DIRECT_DUTY of a key table word. -/
def keyWordDuty (w : Word) : Nat := w.toNat / 16 % 32

/-- TRIM and SIDE of a key table word: TRIM is 5 bits, two's complement (R186). -/
def keyWordVoice (w : Word) : KeyVoice :=
  let t := w.toNat / 512 % 32
  { trim := if t < 16 then (t : Int) else (t : Int) - 32
    side := if w.toNat / 4 % 4 = 0 then .auto else if w.toNat / 4 % 4 = 1 then .bass else .treble }

/-! ## Conditions of the ring, the load and the clock -/

/-- The Roll Ring Monitor is watching (R2). The Cue Unit is active (R150), and the key table's SOURCE acts (R117), under the
same condition: from the success of a load's validation until the next entry to IDLE. -/
def State.watching (s : State) : Bool :=
  match s.clock.state with
  | .idle => false
  | .loading => s.shadow.loaded
  | .ready => true
  | .playing => true
  | .starved => true
  | .held => true
  | .ending => true
  | .stopping => true

/-- The load in progress has not validated yet (R171 to R174). -/
def State.validating (s : State) : Bool := decide (s.clock.state = .loading) && !s.shadow.loaded

/-- The head slot's record. -/
def Ring.headSlot (r : Ring) : Slot := r.slots.get r.head

/-- The head is ready (R10). -/
def Ring.headReady (r : Ring) : Bool := decide (r.headSlot.state = .ready)

/-- The slot after a slot, going round (R11). -/
def Ring.after (r : Ring) (i : Fin 128) : Fin 128 := if i.val + 1 < r.nslots then Fin.ofNat 128 (i.val + 1) else 0

/-- A line is held CURRENT and undecoded by a BEFORE hold (R53): in progress, neither in fetch nor in decode. -/
def State.lineHeld (s : State) : Bool := s.clock.lineInProgress && s.ring.fetch.isNone && s.track.decode.isNone

/-- The effective interval in microseconds (R43). -/
def State.interval (s : State) : Nat := s.shadow.lineInterval * 100 / s.shadow.tempo

/-! ## Keys and heat -/

def State.key (s : State) (k : Key) : KeyRec := s.keys.get k

/-- A key is free (R105). -/
def KeyRec.free (r : KeyRec) : Bool := decide (r.state = .rest) && r.timer.isNone

/-- A key is REST or LOCKED (R58, R60). -/
def KeyRec.quiet (r : KeyRec) : Bool := decide (r.state = .rest) || decide (r.state = .locked)

def State.keysQuiet (s : State) : Bool := s.keys.data.all KeyRec.quiet

/-- The applied duty of a key (R102, R121). -/
def State.appliedDuty (s : State) (k : Key) : Nat :=
  if s.inh ∧ (s.key k).source = .timer then 0 else (s.key k).duty

/-- The hold duty, halved under a reduced hold (R102). -/
def State.holdDutyOf (s : State) (reduced : Bool) : Nat :=
  if reduced then s.shadow.holdDuty / 2 else s.shadow.holdDuty

/-- The output duty that R102 gives a key by its SOURCE and state. -/
def State.dutyByTable (s : State) (r : KeyRec) : Nat :=
  match r.state with
  | .rest => 0
  | .firing => 16
  | .holding => s.holdDutyOf r.reduced
  | .releasing => 0
  | .locked => if r.source = .direct then r.directDuty else 0

def State.isWarm (s : State) (k : Key) : Bool := decide (s.heat.warm ≤ (s.key k).heat)
def State.isHot (s : State) (k : Key) : Bool := decide (s.heat.hot ≤ (s.key k).heat)

/-! ## Pedals -/

def PedalUnit.pedal (u : PedalUnit) (p : Pedal) : PedalRec := u.recs.get (pedalIndex p)

/-- The frame in flight (R138). -/
def Link.frame : Link → Option Frame
  | .idle => none
  | .sending f _ _ => some f
  | .awaiting f _ => some f

/-- The pedal has a frame of its own in flight. -/
def PedalUnit.inFlight (u : PedalUnit) (p : Pedal) : Bool :=
  match u.link.frame with
  | none => false
  | some f => decide (f.pedal = p)

/-- A pedal is settled (R146). -/
def PedalUnit.settled (u : PedalUnit) (p : Pedal) : Bool :=
  decide ((u.pedal p).motion = .fault) ||
    (decide ((u.pedal p).motion = .atRest) && decide ((u.pedal p).depth = 0) && (u.pedal p).waiting.isNone && !u.inFlight p)

def PedalUnit.allSettled (u : PedalUnit) : Bool := allPedals.all u.settled

/-- The part awaits the settling of its pedals (R144). -/
def State.awaitsSettling (s : State) : Bool :=
  match s.clock.state with
  | .loading => s.shadow.loaded
  | .ending => s.clock.drained
  | .stopping => true
  | .idle => false
  | .ready => false
  | .playing => false
  | .starved => false
  | .held => false

/-- A key is sustained (R128). -/
def State.sustained (s : State) (k : Key) : Bool :=
  (decide ((s.pedals.pedal .damper).motion ≠ .fault) && decide (s.heat.sustain ≤ (s.pedals.pedal .damper).depth))
    || s.pedals.sost.contains k

/-! ## Report ring and notice line (R177 to R182) -/

/-- The number of unread records: from the read index up to the record before the write index, going round (R177). A read
index beyond the ring, which only a write taken in LOADING before validation can bring, counts modulo the ring (log 13). -/
def Report.unread (r : Report) : Nat :=
  match r.copies with
  | none => 0
  | some c => (r.wr + c.size - r.readIndex % c.size) % c.size

/-- The ring has room (R179). -/
def Report.hasRoom (r : Report) : Bool :=
  match r.copies with
  | none => false
  | some c => decide (r.unread + r.queue.length + (if r.current.isSome then 1 else 0) + 1 < c.size)

/-- The ring is full for the writer (R180). -/
def Report.isFull (r : Report) : Bool :=
  match r.copies with
  | none => true
  | some c => decide ((r.wr + 1) % c.size = r.readIndex)

/-- With no record in progress the oldest queued record becomes the record in progress, or is dropped with reports-lost set
if the ring is full, and the next is taken in the same way (R180). The number is the most that may be taken. -/
def Report.pump : Nat → Report → Report
  | 0, r => r
  | n + 1, r =>
    match r.current, r.queue with
    | none, x :: rest =>
      if r.isFull then Report.pump n { r with queue := rest, lost := true }
      else { r with queue := rest, current := some { record := x, written := 0 } }
    | _, _ => r

/-- The Report Writer takes up its queue (R180). -/
def Report.takeUp (r : Report) : Report := r.pump r.queue.length

/-- A record is handed to the Report Writer (R179): dormant, it takes no account of it; active, it queues the record if
there is room, and takes up its queue at once, or drops the record and sets reports-lost. -/
def Report.accept (x : Record) (r : Report) : Report :=
  if r.active then
    if r.hasRoom then { r with queue := r.queue ++ [x] }.takeUp else { r with lost := true }
  else r

/-- The write index after a commit (R180). -/
def Report.nextWr (r : Report) : Nat :=
  match r.copies with
  | none => r.wr
  | some c => (r.wr + 1) % c.size

/-- The record in progress is committed (R180), and the queue taken up. -/
def Report.commit (x : Record) (r : Report) : Report :=
  { r with
    classes := r.classes.set (Fin.ofNat 256 r.wr) (some (kindClass x.kind))
    wr := r.nextWr
    current := none }.takeUp

/-- The indices of the unread slots, oldest first. -/
def Report.unreadSlots (r : Report) : List Nat :=
  match r.copies with
  | none => []
  | some c => (List.range r.unread).map (fun i => (r.readIndex + i) % c.size)

/-- The class a slot holds. -/
def Report.classAt (r : Report) (slot : Nat) : Option ReportClass := r.classes.get (Fin.ofNat 256 slot)

/-- A slot holds a class whose enable in NOTICE_ENABLE is set (R182). -/
def noticeClass (enables : Nat) : Option ReportClass → Bool
  | none => false
  | some c => decide (enables / 2 ^ classCode c % 2 = 1)

/-- The condition under which NTC_N is asserted (R182). -/
def State.noticeDue (s : State) : Bool :=
  !s.rst && decide (s.clock.state ≠ .idle) &&
    s.report.unreadSlots.any (fun n => noticeClass s.report.enables (s.report.classAt n))

/-! ## KD outputs (R122) -/

/-- KD output k is on at `e` eighths of a microsecond into a 50 us period: for duty × 3.125 us, which are 25 eighths each,
from the start of the period, and off for the rest. That the on-time comes first in the period is DEDUCED (log 32). -/
def State.kdOnAt (s : State) (k : Key) (e : Nat) : Bool := !s.rst && decide (e < 25 * (s.key k).kd)

/-- The level of KD output k now (R122): every period lasts 50 us, and the next one starts at `kdNext`. -/
def State.kdOut (s : State) (k : Key) : Bool :=
  s.kdOnAt k (8 * ((s.now + Config.kdPeriod - s.kdNext) % Config.kdPeriod))

/-! ## Part-written words (section 12.4) -/

def bit (b : Bool) (n : Nat) : Nat := if b then 2 ^ n else 0

/-- Word `i` of the sostenuto set: key k is bit (k - 1) mod 16 of word (k - 1) / 16. -/
def sostenutoWord (set : List Key) (i : Nat) : Word :=
  toWord ((List.range 16).foldl (fun acc b => acc + bit (set.any (fun k => decide (k.val = 16 * i + b))) b) 0)

/-- Key status word (section 12.4). -/
def keyStatusWord (r : KeyRec) : Word := toWord (keyStateCode r.state + 256 * (r.heat / 256))

def pedalWord (r : PedalRec) : Word := toWord (r.depth + 256 * motionCode r.motion)

/-- The value mirrored by the part-written word at an offset (section 12.4). A RESULT with nothing pending mirrors
nothing and is never on the update list. -/
def State.statusValue (s : State) (off : Nat) : Word :=
  if off = offResult then
    match s.shadow.result with
    | none => 0
    | some r => resultWord r
  else if off = offPlay then toWord (playbackCode s.clock.state + 256 * causeCode s.clock.cause)
  else if off = offLastTag then s.track.lastTag
  else if off = offExpected then s.clock.expected
  else if off = offHead then toWord s.ring.head.val
  else if off = offShift then signedWord s.track.shift
  else if off = offBass then toWord s.expr.bass.level
  else if off = offTreble then toWord s.expr.treble.level
  else if off = offPedal .damper then pedalWord (s.pedals.pedal .damper)
  else if off = offPedal .soft then pedalWord (s.pedals.pedal .soft)
  else if off = offPedal .sostenuto then pedalWord (s.pedals.pedal .sostenuto)
  else if off = offFiring then toWord s.fire.count
  else if off = offOccupancy then toWord s.sched.length
  else if off = offQueue then toWord s.fire.queue.length
  else if off = offCue then toWord (bit s.cue.flagA 0 + bit s.cue.flagB 1 + bit s.cue.bArmed 2)
  else if off = offWrite then toWord s.report.wr
  else if off = offFlags then toWord (bit s.report.lost 0 + bit s.inh 1)
  else if off = offLoadFault then toWord s.shadow.loadFault
  else if inRange 0x032 off 0x03C then sostenutoWord s.pedals.sost ((off - 0x032) / 2)
  else if off = offCount then toWord s.shadow.count.toNat
  else if inRange 0x600 off 0x6AE then keyStatusWord (s.key (Fin.ofNat 88 ((off - 0x600) / 2)))
  else 0

/-! ## Pedal link output (R136) -/

/-- Bit `i` of a byte on a line: start bit, eight data bits from the least significant, stop bit (R136). The stop level is
written true; that a start bit is the other level is DEDUCED (log 19). -/
def lineBit (b : Byte) (i : Nat) : Bool := if i = 0 then false else if i ≤ 8 then b.getLsbD (i - 1) else true

end Sys2Proof.Machine
end

