-- ==== Sys2Proof/Machine/Operands.lean ====
section
/-! DEFINITION. Operand forms: processor-port cycles, byte lanes, windows and the class of a cycle (R1, R161, R162, R168). -/

namespace Sys2Proof.Machine

/-- The word's even byte address. -/
def ProcCycle.addr (c : ProcCycle) : Nat := 2 * c.wa.toNat

/-- The lanes written take the new bytes, a lane not written keeps the old one (R165, R168). -/
def laneMerge (lanes : Lanes) (old new : Word) : Word :=
  match lanes with
  | .low => wordOf (hiByte old) (loByte new)
  | .high => wordOf (hiByte new) (loByte old)
  | .both => new

/-- A data word as the Cue Unit sees it: the byte of a lane the cycle does not use is 0 (R154). PD after a read takes the same
form by the model's choice (log 34). -/
def laneData (lanes : Lanes) (w : Word) : Word := laneMerge lanes 0 w

/-- Memory after a write with the lanes the processor used (R8, R165). -/
def writeLanes (m : Memory) (a : Nat) (lanes : Lanes) (w : Word) : Memory :=
  match lanes with
  | .low => writeByte m a (loByte w)
  | .high => writeByte m (a + 1) (hiByte w)
  | .both => writeWord m a w

/-- The byte address that a BUS test compares (R154). -/
def ProcCycle.cueAddr (c : ProcCycle) : Nat :=
  match c.lanes with
  | .high => c.addr + 1
  | .low => c.addr
  | .both => c.addr

/-- The first byte address of the setup page (R161). -/
def State.pageBase (s : State) : Nat := s.spb.toNat * Config.pageStride

/-- The word address of the page word at a byte offset. -/
def State.pageWordAddr (s : State) (off : Nat) : BitVec 20 := BitVec.ofNat 20 ((s.pageBase + off) / 2)

/-- The classes of cycle (R162). -/
inductive CycleClass where
  /-- A setup cycle at an offset of the page. -/
  | setup (off : Nat)
  /-- A ring cycle at a slot and a word of it (R1). -/
  | ring (slot : Fin 128) (w : Nat)
  | reportRing
  | ordinary
deriving DecidableEq, Repr

/-- An address in the roll ring window (R1). -/
def Ring.holds (r : Ring) (a : Nat) : Bool := decide (r.base ≤ a) && decide (a < r.base + 36 * r.nslots)

/-- The slot that a ring cycle addresses (R1). -/
def Ring.slotOf (r : Ring) (a : Nat) : Fin 128 := Fin.ofNat 128 ((a - r.base) / 36)

/-- The word within the slot that a ring cycle addresses (R1). -/
def Ring.wordOf (r : Ring) (a : Nat) : Nat := (a - r.base) % 36 / 2

/-- The address of word `w` of slot `n` (R1). -/
def Ring.wordAddr (r : Ring) (n : Fin 128) (w : Nat) : Nat := r.base + 36 * n.val + 2 * w

/-- An address in the report ring window (R162). -/
def Report.holds (r : Report) (a : Nat) : Bool :=
  match r.copies with
  | none => false
  | some c => decide (c.base ≤ a) && decide (a < c.base + 8 * c.size)

/-- The class of a cycle at an even byte address (R162). -/
def State.classify (s : State) (a : Nat) : CycleClass :=
  if s.pageBase ≤ a ∧ a < s.pageBase + Config.pageSize then .setup (a - s.pageBase)
  else if s.shadow.loaded && s.ring.holds a then .ring (s.ring.slotOf a) (s.ring.wordOf a)
  else if s.shadow.loaded && s.report.holds a then .reportRing
  else .ordinary

/-- A processor write to a page word. -/
def State.pageWrite (s : State) (off : Nat) (lanes : Lanes) (data : Word) (o : BusOrder) : ProcCycle :=
  { isWrite := true, wa := s.pageWordAddr off, lanes := lanes, data := data, order := o }

/-- A processor write of the COMMAND word with a command's code on the low lane; `hi` is the high lane's byte, if used. -/
def State.commandWrite (s : State) (code : Nat) (hi : Option Byte) (o : BusOrder) : ProcCycle :=
  match hi with
  | none => s.pageWrite offCommand .low (toWord code) o
  | some b => s.pageWrite offCommand .both (wordOf b (BitVec.ofNat 8 code)) o

/-- The command code of a COMMAND write (R168): its low byte, or 0 without the low lane. -/
def ProcCycle.code (c : ProcCycle) : Nat := (commandCode c.lanes c.data).toNat

end Sys2Proof.Machine
end

