-- ==== Sys2Proof/Machine/Ops.lean ====
section
/-! DEFINITION. The named operations every meaning is built from. Each is ONE update of State, so that what it leaves alone is true by rfl (Sys2Proof/Laws/State.lean). -/

namespace Sys2Proof.Machine

/-! ## Status Writer (R183) -/

/-- A word joins the end of the update list; a word already on it keeps its place. -/
def joinList (off : Nat) (l : List Nat) : List Nat := if l.contains off then l else l ++ [off]

/-- The list after a change of the word at `off`, if there was one. -/
def tellIf (changed : Bool) (off : Nat) (l : List Nat) : List Nat := if changed then joinList off l else l

/-- The Status Writer is told of a change of the word at `off`. -/
def touch (off : Nat) (s : State) : State := { s with updates := joinList off s.updates }

/-! ## Time -/

/-- The instant becomes `t`, never an earlier one; PLAYING time is counted (R46). -/
def advance (t : Instant) (s : State) : State :=
  { s with
    now := max s.now t
    clock :=
      { s.clock with
        exprCount := if s.clock.state = .playing then s.clock.exprCount + (max s.now t - s.now) else s.clock.exprCount } }

/-! ## Report Writer (R178, R179) -/

/-- The Report Writer's parts, its write index and reports-lost told when they change (R178). -/
def setReport (r : Report) (s : State) : State :=
  { s with
    report := r
    updates :=
      tellIf (decide (s.report.lost ≠ r.lost)) offFlags
        (tellIf (decide (s.report.wr ≠ r.wr)) offWrite s.updates) }

/-- A block raises a record, which carries the last decoded tag (R179). -/
def raise (k : ReportKind) (subject detail : Word) (s : State) : State :=
  setReport (s.report.accept { kind := k, tag := s.track.lastTag, subject := subject, detail := detail }) s

/-! ## Memory and the port -/

/-- A processor write carried to memory with its lanes. -/
def passWrite (c : ProcCycle) (s : State) : State := { s with mem := writeLanes s.mem c.addr c.lanes c.data }

/-- A part write carried to memory. -/
def partWrite (a : Nat) (w : Word) (s : State) : State := { s with mem := writeWord s.mem a w }

/-- The current owner of the memory port. -/
def setOwner (o : Option Access) (s : State) : State := { s with arb := { s.arb with owner := o } }

/-- The processor cycle that waits with PWAIT_N asserted. -/
def setWaitingCycle (c : Option ProcCycle) (s : State) : State := { s with arb := { s.arb with waiting := c } }

/-- The word returned to the processor by a read. -/
def setPd (w : Word) (s : State) : State := { s with pd := w }

/-! ## Roll Clock -/

/-- The expression count once the state becomes `st` (R46, R82): when PLAYING ends before a step whose instant has come is
taken, the count freezes just short of 10 ms; when PLAYING resumes, the PLAYING time still owed is counted (log 22). -/
def Clock.countOn (k : Clock) (st : Playback) : Nat :=
  if k.state = .playing then
    if st = .playing then k.exprCount else min k.exprCount (Config.expressionPeriod - 1)
  else if st = .playing then k.exprCount + k.exprOwed
  else k.exprCount

/-- The PLAYING time owed to the expression count once the state becomes `st`: what `Clock.countOn` leaves out when PLAYING
ends, none once PLAYING has resumed (R46, log 22). -/
def Clock.owedOn (k : Clock) (st : Playback) : Nat :=
  if k.state = .playing then
    if st = .playing then k.exprOwed else k.exprOwed + (k.exprCount - (Config.expressionPeriod - 1))
  else if st = .playing then 0
  else k.exprOwed

/-- The playback state and its cause; the Status Writer is told of a change (R40). -/
def setPlay (st : Playback) (c : Cause) (s : State) : State :=
  { s with
    clock := { s.clock with state := st, cause := c, exprCount := s.clock.countOn st, exprOwed := s.clock.owedOn st }
    updates := tellIf (decide (s.clock.state ≠ st) || decide (s.clock.cause ≠ c)) offPlay s.updates }

/-- The expected tag (R40). -/
def setExpected (tag : Word) (s : State) : State :=
  { s with
    clock := { s.clock with expected := tag }
    updates := tellIf (decide (s.clock.expected ≠ tag)) offExpected s.updates }

/-- A part of the playback record that the status block does not show. -/
def updClock (f : Clock → Clock) (s : State) : State :=
  { s with clock := { f s.clock with state := s.clock.state, cause := s.clock.cause, expected := s.clock.expected } }

/-! ## Roll Ring Monitor -/

/-- A slot record is changed. -/
def updSlot (i : Fin 128) (f : Slot → Slot) (s : State) : State :=
  { s with ring := { s.ring with slots := s.ring.slots.modify i f } }

/-- The fetch in flight and the line buffer. -/
def setFetch (f : Option Fetch) (buffer : List Word) (s : State) : State :=
  { s with ring := { s.ring with fetch := f, buffer := buffer } }

/-- The CURRENT slot is freed and the head advances (R11, R17, R18, R20). -/
def freeHead (s : State) : State :=
  { s with
    ring :=
      { s.ring with
        slots := s.ring.slots.set s.ring.head {}
        head := s.ring.after s.ring.head
        fetch := none
        buffer := [] }
    updates := tellIf (decide (s.ring.after s.ring.head ≠ s.ring.head)) offHead s.updates }

/-- The ring reset (R12), with the ring's placement given. -/
def ringResetTo (base nslots : Nat) (s : State) : State :=
  { s with
    ring := { base := base, nslots := nslots }
    updates := tellIf (decide (s.ring.head ≠ 0)) offHead s.updates }

/-- The ring reset (R12). -/
def ringReset (s : State) : State := ringResetTo s.ring.base s.ring.nslots s

/-! ## Track Reader -/

/-- A part of the Track Reader that the status block does not show. -/
def updTrack (f : Track → Track) (s : State) : State :=
  { s with track := { f s.track with lastTag := s.track.lastTag, shift := s.track.shift } }

/-- The last decoded tag (R23). -/
def setLastTag (tag : Word) (s : State) : State :=
  { s with
    track := { s.track with lastTag := tag }
    updates := tellIf (decide (s.track.lastTag ≠ tag)) offLastTag s.updates }

/-- The shift (R24, R26). -/
def setShift (z : Int) (s : State) : State :=
  { s with
    track := { s.track with shift := z }
    updates := tellIf (decide (s.track.shift ≠ z)) offShift s.updates }

/-! ## Expression Unit -/

/-- Both side records; the Status Writer is told of each level that changed (R69). -/
def setSides (bass treble : Side) (s : State) : State :=
  { s with
    expr := { s.expr with bass := bass, treble := treble }
    updates :=
      tellIf (decide (s.expr.treble.level ≠ treble.level)) offTreble
        (tellIf (decide (s.expr.bass.level ≠ bass.level)) offBass s.updates) }

/-- The soft input, the copies and the decode sample. -/
def setExprRest (soft : Bool) (copies : Option ExprCopies) (sample : Option Sample) (s : State) : State :=
  { s with expr := { s.expr with soft := soft, copies := copies, sample := sample } }

/-! ## Strike Schedule and Firing Arbiter -/

/-- The schedule's list; the Status Writer is told when the occupancy changes (R83, R90). -/
def setSched (l : List Entry) (s : State) : State :=
  { s with sched := l, updates := tellIf (decide (s.sched.length ≠ l.length)) offOccupancy s.updates }

/-- The firing queue; the Status Writer is told when its length changes (R93). -/
def setQueue (q : List Waiting) (s : State) : State :=
  { s with
    fire := { s.fire with queue := q }
    updates := tellIf (decide (s.fire.queue.length ≠ q.length)) offQueue s.updates }

/-- The firing count (R93). -/
def setCount (n : Nat) (s : State) : State :=
  { s with
    fire := { s.fire with count := n }
    updates := tellIf (decide (s.fire.count ≠ n)) offFiring s.updates }

/-! ## Keys -/

/-- A key record is changed; the Status Writer is told when the state or the high part of the heat changes (R101, R127). -/
def updKey (k : Key) (f : KeyRec → KeyRec) (s : State) : State :=
  { s with
    keys := s.keys.modify k f
    updates :=
      tellIf (decide ((s.key k).state ≠ (f (s.key k)).state) || decide ((s.key k).heat / 256 ≠ (f (s.key k)).heat / 256))
        (offKeyStatus k) s.updates }

/-! ## Pedals -/

/-- A pedal record is changed; the Status Writer is told when the depth or the motion changes (R134). -/
def updPedal (p : Pedal) (f : PedalRec → PedalRec) (s : State) : State :=
  { s with
    pedals := { s.pedals with recs := s.pedals.recs.modify (pedalIndex p) f }
    updates :=
      tellIf (decide ((s.pedals.pedal p).depth ≠ (f (s.pedals.pedal p)).depth)
          || decide ((s.pedals.pedal p).motion ≠ (f (s.pedals.pedal p)).motion))
        (offPedal p) s.updates }

/-- The link state (R138). -/
def setLink (l : Link) (s : State) : State := { s with pedals := { s.pedals with link := l } }

/-- The receiver's partial frame (R137). -/
def setRx (bytes : List Byte) (endAt : Instant) (s : State) : State :=
  { s with pedals := { s.pedals with rxBytes := bytes, rxEnd := endAt } }

/-- The copies of PEDAL_RETRIES, REPLY_TIMEOUT and TRAVEL_LIMIT (R134). -/
def setPedalCopies (retries reply travel : Nat) (s : State) : State :=
  { s with pedals := { s.pedals with maxRetries := retries, replyTimeout := reply, travelLimit := travel } }

/-- The sostenuto set; the Status Writer is told of each of its six words that changed (R145). -/
def setSost (l : List Key) (s : State) : State :=
  { s with
    pedals := { s.pedals with sost := l }
    updates :=
      (List.range 6).foldl
        (fun u i => tellIf (decide (sostenutoWord s.pedals.sost i ≠ sostenutoWord l i)) (offSostenuto i) u) s.updates }

/-! ## Cue Unit -/

/-- The match flags and B-armed; the Status Writer is told of a change (R150). -/
def setCueFlags (a b armed : Bool) (s : State) : State :=
  { s with
    cue := { s.cue with flagA := a, flagB := b, bArmed := armed }
    updates :=
      tellIf (decide (s.cue.flagA ≠ a) || decide (s.cue.flagB ≠ b) || decide (s.cue.bArmed ≠ armed)) offCue s.updates }

/-- The exempt mark (R156). -/
def setExempt (b : Bool) (s : State) : State := { s with cue := { s.cue with exempt := b } }

/-! ## Setup Shadow -/

/-- A field word of the shadow takes a value. -/
def putField (off : Nat) (w : Word) (s : State) : State := { s with shadow := s.shadow.put off w }

/-- Whether the shadow is loaded. -/
def setLoaded (b : Bool) (s : State) : State := { s with shadow := { s.shadow with loaded := b } }

/-- The read set of the load in progress. -/
def setReadCount (n : Nat) (s : State) : State := { s with shadow := { s.shadow with readCount := n } }

/-- The command intake argument. -/
def setArg (w : Word) (s : State) : State := { s with shadow := { s.shadow with arg := w } }

/-- The COMMAND write held while its argument is read (R169). -/
def setHeldCommand (c : Option ProcCycle) (s : State) : State := { s with shadow := { s.shadow with held := c } }

/-- The command count rises by one, modulo 256 (R168). -/
def bumpCount (s : State) : State :=
  { s with shadow := { s.shadow with count := s.shadow.count + 1 }, updates := joinList offCount s.updates }

/-- The load-fault offset (R167). -/
def setLoadFault (off : Nat) (s : State) : State :=
  { s with
    shadow := { s.shadow with loadFault := off }
    updates := tellIf (decide (s.shadow.loadFault ≠ off)) offLoadFault s.updates }

/-- A command's result is placed in the result pending part, and RESULT joins the update list (R170, R183). The code echo
is the code for codes 1 to 9 and 0 for any other (section 12.3). -/
def placeResult (code : Nat) (r : Reply) (s : State) : State :=
  { s with
    shadow :=
      { s.shadow with
        result := some { code := if inRange 1 code 9 then code else 0, reply := r, count := s.shadow.count } }
    updates := joinList offResult s.updates }

/-! ## Pins -/

/-- The inhibit flag (R121). -/
def setInhibit (b : Bool) (s : State) : State :=
  { s with inh := b, updates := tellIf (decide (s.inh ≠ b)) offFlags s.updates }

/-- The outputs NTC_N and PWAIT_N follow their conditions (R182, R166, R169). -/
def drivePins (s : State) : State :=
  { s with ntc := s.noticeDue, pwait := s.arb.waiting.isSome || s.shadow.held.isSome }

end Sys2Proof.Machine
end

