-- ==== Sys2Proof/Machine/KeyOps.lean ====
section
/-! DEFINITION. Key Action Channels, Firing Arbiter and Coil Heat Model: what happens to one key (chapters 5, 6 and 7). -/

namespace Sys2Proof.Machine

/-- The number of a key as a word of a record. -/
def keyWord (k : Key) : Word := toWord (keyNumber k)

/-! ## Recovery, waiting strikes (R104, R110) -/

/-- The record of a key on entry to RELEASING (R110): output 0, RECOVERY loaded, the next note becomes the note. -/
def KeyRec.releasing (r : KeyRec) (expiry : Instant) : KeyRec :=
  { r with
    state := .releasing
    duty := 0
    timer := some expiry
    reduced := false
    note := r.nextNote
    releaseOwed := r.nextNote.isSome && r.nextOwed
    nextNote := none
    nextOwed := false }

/-- The firing count falls by one if a key was FIRING (R93). -/
def leaveFiring (was : KeyState) (s : State) : State :=
  setCount (if was = .firing then s.fire.count - 1 else s.fire.count) s

/-- Entry to RELEASING, whatever its cause (R110). -/
def toReleasing (k : Key) (s : State) : State :=
  leaveFiring (s.key k).state
    (updKey k (fun r => r.releasing (s.now + Config.unit * s.shadow.recovery)) s)

/-- The record of a key whose waiting strike is gone (R104). -/
def KeyRec.strikeGone (r : KeyRec) : KeyRec :=
  match r.state with
  | .rest => { r with note := none, releaseOwed := false }
  | .releasing => { r with note := none, releaseOwed := false }
  | .firing => { r with nextNote := none, nextOwed := false }
  | .holding => { r with nextNote := none, nextOwed := false }
  | .locked => r

/-- The channel is told that the strike waiting for its key has left the queue without being struck (R104). -/
def strikeGone (k : Key) (s : State) : State := updKey k KeyRec.strikeGone s

/-- The queue without key k's waiting strike. -/
def withoutKey (k : Key) (q : List Waiting) : List Waiting := q.filter (fun w => decide (w.key ≠ k))

/-- Key k's waiting strike. -/
def waitingOf (k : Key) (q : List Waiting) : Option Waiting := q.find? (fun w => decide (w.key = k))

/-- A waiting strike is dropped for lateness (R98). -/
def dropWaiting (k : Key) (s : State) : State :=
  match waitingOf k s.fire.queue with
  | none => s
  | some w => strikeGone k (raise .dropLate (keyWord k) w.tag (setQueue (withoutKey k s.fire.queue) s))

/-! ## Entries of one note (R90) -/

/-- The entry is the RELEASE of key k that carries serial s. -/
def isReleaseOf (k : Key) (serial : Byte) (e : Entry) : Bool :=
  match e.act with
  | .release k' serial' => decide (k' = k) && decide (serial' = serial)
  | .strike _ _ _ => false
  | .move _ _ => false

/-- The entry is a STRIKE or RELEASE of key k. -/
def isEntryOf (k : Key) (e : Entry) : Bool :=
  match e.act with
  | .release k' _ => decide (k' = k)
  | .strike k' _ _ => decide (k' = k)
  | .move _ _ => false

/-- End note s of key k: the earliest RELEASE entry of the key that carries the serial is removed (R90). -/
def endNote (k : Key) (note : Option Byte) (s : State) : State :=
  match note with
  | none => s
  | some serial => setSched (s.sched.eraseP (isReleaseOf k serial)) s

/-! ## Grants (R96, R97, R105) -/

/-- The action curve row of a drive level, from the Expression Unit's copy (R80). -/
def State.curveRow (s : State) (level : Nat) : CurveRow :=
  match s.expr.copies with
  | none => {}
  | some c => c.curve.get (Fin.ofNat 32 (level / 4))

/-- The record of a key that is granted its strike (R105). -/
def KeyRec.granted (r : KeyRec) (serial : Byte) (expiry : Instant) : KeyRec :=
  { r with state := .firing, timer := some expiry, duty := 16, reduced := false, note := some serial }

/-- The first strike in queue order whose key is free (R96). -/
def State.eligible (s : State) : Option Waiting := s.fire.queue.find? (fun w => (s.key w.key).free)

/-- One grant: the strike leaves the queue, and is dropped if its key is hot, or else its key goes to FIRING. -/
def grantOne (w : Waiting) (s : State) : State :=
  if s.isHot w.key then
    strikeGone w.key (raise .dropHot (keyWord w.key) w.tag (setQueue (withoutKey w.key s.fire.queue) s))
  else
    updKey w.key (fun r => r.granted w.serial (s.now + Config.unit * (s.curveRow w.level).width))
      (setCount (s.fire.count + 1) (setQueue (withoutKey w.key s.fire.queue) s))

/-- Grants are repeated while a place is open and a strike is eligible (R96); each takes a strike out of the queue. -/
def grantLoop : Nat → State → State
  | 0, s => s
  | n + 1, s =>
    if s.fire.count < s.shadow.fireBudget then
      match s.eligible with
      | none => s
      | some w => grantLoop n (grantOne w s)
    else s

/-- The Firing Arbiter looks for a grant (R96). -/
def grantStrikes (s : State) : State := grantLoop s.fire.queue.length s

/-! ## A strike joins the queue (R93, R94, R95, R98, R103) -/

/-- Queue order: due instant, then key (R93). -/
def insertWaiting (w : Waiting) : List Waiting → List Waiting
  | [] => [w]
  | x :: rest =>
    if x.due < w.due ∨ (x.due = w.due ∧ x.key < w.key) then x :: insertWaiting w rest else w :: x :: rest

/-- The channel takes a strike that joins the queue, by its state (R103); a strike for a key that is sounding a note
overtakes it, and the note's RELEASE entry is removed (R95). MIN_HOLD has elapsed when the timer has run out (log 20). -/
def strikeJoins (k : Key) (serial : Byte) (s : State) : State :=
  match (s.key k).state with
  | .rest => updKey k (fun r => { r with note := some serial, releaseOwed := false }) s
  | .releasing => updKey k (fun r => { r with note := some serial, releaseOwed := false }) s
  | .firing =>
    updKey k (fun r => { r with nextNote := some serial, nextOwed := false, releaseOwed := true })
      (endNote k (s.key k).note s)
  | .holding =>
    if (s.key k).timer.isNone then
      toReleasing k
        (updKey k (fun r => { r with nextNote := some serial, nextOwed := false }) (endNote k (s.key k).note s))
    else
      updKey k (fun r => { r with nextNote := some serial, nextOwed := false, releaseOwed := true })
        (endNote k (s.key k).note s)
  | .locked => s

/-- The strike that waits for the key is replaced, with DROP_LATE (R94, step 1). -/
def replaceWaiting (k : Key) (s : State) : State :=
  match waitingOf k s.fire.queue with
  | none => s
  | some old => raise .dropLate (keyWord k) old.tag (setQueue (withoutKey k s.fire.queue) s)

/-- A strike not granted on entry whose expiry instant has arrived is dropped at once (R98). -/
def expireOnEntry (w : Waiting) (s : State) : State :=
  if s.fire.queue.contains w ∧ w.expiry ≤ s.now then dropWaiting w.key s else s

/-- A dispatched STRIKE enters the firing queue (R94). A strike for a LOCKED key cannot reach it (R95); the model ignores
one (log 27). -/
def enterQueue (w : Waiting) (s : State) : State :=
  if (s.key w.key).state = .locked then s
  else
    let joined := replaceWaiting w.key s
    expireOnEntry w
      (grantStrikes (strikeJoins w.key w.serial (setQueue (insertWaiting w joined.fire.queue) joined)))

/-! ## A release reaches its key (R108, R109) -/

/-- The release of a serial reaches key k: current for the note, current for the next note, or stale. -/
def takeRelease (k : Key) (serial : Byte) (s : State) : State :=
  if (s.key k).note = some serial then
    match (s.key k).state with
    | .firing => updKey k (fun r => { r with releaseOwed := true }) s
    | .holding =>
      if (s.key k).timer.isNone then toReleasing k s else updKey k (fun r => { r with releaseOwed := true }) s
    | .rest => updKey k (fun r => { r with releaseOwed := true }) s
    | .releasing => updKey k (fun r => { r with releaseOwed := true }) s
    | .locked => s
  else if (s.key k).nextNote = some serial ∧ ((s.key k).state = .firing ∨ (s.key k).state = .holding) then
    updKey k (fun r => { r with nextOwed := true }) s
  else s

/-! ## Heat on a held key (R129 to R131) -/

/-- An early release (R130). -/
def earlyRelease (k : Key) (cause : Word) (s : State) : State :=
  raise .earlyRelease (keyWord k) cause (toReleasing k (endNote k (s.key k).note s))

/-- A reduced hold (R131). -/
def reduceHold (k : Key) (s : State) : State :=
  raise .holdReduced (keyWord k) (toWord (s.key k).heat)
    (updKey k (fun r => { r with reduced := true, duty := s.holdDutyOf true }) s)

/-- The heat test of a HOLDING key: the first case of R129 that applies. -/
def heatTest (k : Key) (s : State) : State :=
  if (s.key k).state = .holding then
    if s.isHot k then earlyRelease k earlyHot s
    else if s.isWarm k then
      if s.sustained k then earlyRelease k earlyWarmSustained s
      else if (s.key k).reduced then s
      else reduceHold k s
    else s
  else s

/-- The heat after one heat step at an applied duty (R125). -/
def heatAfter (h : Heat) (heat duty : Nat) : Nat := min 65535 (heat + duty * h.gain / 16 - h.cool)

/-- One key's part of a heat step: the value, then the test (R125). -/
def heatKey (s : State) (k : Key) : State :=
  heatTest k (updKey k (fun r => { r with heat := heatAfter s.heat r.heat (s.appliedDuty k) }) s)

/-! ## Timers of a key (R106, R107, R111) -/

/-- The MIN_HOLD timer of a HOLDING key runs out (R107). -/
def minHoldOut (k : Key) (s : State) : State :=
  if (s.key k).releaseOwed then toReleasing k s else updKey k (fun r => { r with timer := none }) s

/-- The record of a key that enters HOLDING (R106). -/
def KeyRec.entersHolding (r : KeyRec) (now : Instant) (minHold duty : Nat) : KeyRec :=
  { r with state := .holding, holdStart := now, timer := some (now + Config.unit * minHold), duty := duty }

/-- A key leaves FIRING for HOLDING (R106). -/
def enterHolding (k : Key) (s : State) : State :=
  leaveFiring (s.key k).state (updKey k (fun r => r.entersHolding s.now s.shadow.minHold s.shadow.holdDuty) s)

/-- What R107 does at once when MIN_HOLD is 0. -/
def minHoldAtOnce (k : Key) (s : State) : State :=
  if s.shadow.minHold = 0 ∧ (s.key k).state = .holding then minHoldOut k s else s

/-- The strike pulse ends (R106): HOLDING with the heat test, in the order given with MIN_HOLD 0, or RELEASING in
STOPPING; then the arbiter looks for a grant. -/
def pulseEnds (k : Key) (expiryFirst : Bool) (s : State) : State :=
  if s.clock.state = .stopping then grantStrikes (toReleasing k s)
  else if expiryFirst then grantStrikes (heatTest k (minHoldAtOnce k (enterHolding k s)))
  else grantStrikes (minHoldAtOnce k (heatTest k (enterHolding k s)))

/-- The key becomes REST and free (R105, R111), and the arbiter looks for a grant. -/
def becomesFree (k : Key) (s : State) : State :=
  grantStrikes (updKey k (fun r => { r with state := .rest, timer := none }) s)

/-! ## Sources (R114 to R117) -/

/-- The record of a key that is locked (R114). -/
def KeyRec.lockedBy (r : KeyRec) (src : Source) (direct : Nat) : KeyRec :=
  { r with
    state := .locked
    duty := if src = .direct then direct else 0
    source := src
    directDuty := direct
    note := none
    releaseOwed := false
    nextNote := none
    nextOwed := false
    reduced := false
    timer := none }

/-- Key k is locked (R114), in the order of that list: the key, the firing count, its entries, its waiting strike, the last
two without report. -/
def lockKey (k : Key) (src : Source) (direct : Nat) (s : State) : State :=
  setQueue (withoutKey k s.fire.queue)
    (setSched (s.sched.filter (fun e => !isEntryOf k e))
      (leaveFiring (s.key k).state (updKey k (fun r => r.lockedBy src direct) s)))

/-- Key k is unlocked (R116). -/
def unlockKey (k : Key) (direct : Nat) (s : State) : State :=
  toReleasing k (updKey k (fun r => { r with source := .timer, directDuty := direct, note := none, nextNote := none }) s)

/-- A key table word is brought to bear on key k (R114, R115, R116). -/
def applyKeyWord (k : Key) (w : Word) (s : State) : State :=
  if keyWordSource w = .timer then
    if (s.key k).state = .locked then unlockKey k (keyWordDuty w) s
    else updKey k (fun r => { r with source := .timer, directDuty := keyWordDuty w }) s
  else if (s.key k).state = .locked then
    updKey k
      (fun r =>
        { r with
          source := keyWordSource w
          directDuty := keyWordDuty w
          duty := if keyWordSource w = .direct then keyWordDuty w else 0 }) s
  else lockKey k (keyWordSource w) (keyWordDuty w) s

/-- Every key is brought into line with the SOURCE now in the shadow (R117). -/
def alignKeys (s : State) : State :=
  allKeys.foldl (fun s k => applyKeyWord k (s.shadow.word (offKeyTable k)) s) s

/-- A HOLD_DUTY taken changes the duty of every HOLDING key (R102). -/
def refreshHolds (s : State) : State :=
  allKeys.foldl
    (fun s k =>
      if (s.key k).state = .holding then updKey k (fun r => { r with duty := s.holdDutyOf r.reduced }) s else s) s

/-- The record of a key at entry to IDLE (R120): REST, the 50 ms timer, and SOURCE TIMER applied (R102, R117). -/
def KeyRec.toIdle (r : KeyRec) (now : Instant) : KeyRec :=
  { r with
    state := .rest
    duty := 0
    note := none
    nextNote := none
    releaseOwed := false
    nextOwed := false
    reduced := false
    timer := some (now + Config.resetTimer)
    source := .timer }

/-- Every key at entry to IDLE (R120); a key that was FIRING leaves FIRING (R93). -/
def keysToIdle (s : State) : State :=
  allKeys.foldl
    (fun s k => leaveFiring (s.key k).state (updKey k (fun r => r.toIdle s.now) s)) s

/-! ## STOP and SILENCE (R118, R119) -/

/-- The firing queue is emptied, and each key with a waiting strike is told (R99, R104). -/
def emptyQueue (s : State) : State :=
  setQueue [] (s.fire.queue.foldl (fun s w => strikeGone w.key s) s)

/-- STOP: each HOLDING key goes to RELEASING at once (R118). -/
def stopKeys (s : State) : State :=
  allKeys.foldl (fun s k => if (s.key k).state = .holding then toReleasing k s else s) s

/-- SILENCE: each FIRING or HOLDING key goes to RELEASING at once (R119). -/
def silenceKeys (s : State) : State :=
  allKeys.foldl
    (fun s k => if (s.key k).state = .firing ∨ (s.key k).state = .holding then toReleasing k s else s) s

end Sys2Proof.Machine
end

