-- ==== Sys2Proof/Machine/LinkFrame.lean ====
section
/-! DEFINITION. The pedal link frame (R136, R185, R187): three bytes, their kinds, and the tests of R137. -/

namespace Sys2Proof.Machine

/-- The kinds of frame (R185). -/
inductive FrameKind where
  | move
  | ack
  | nak
  | arrived
deriving DecidableEq, Repr

def frameKindCode : FrameKind → Nat
  | .move => 1
  | .ack => 2
  | .nak => 3
  | .arrived => 4

/-- The kinds that the unit sends (R136): any other kind, MOVE included, fails the kind test (R185). -/
def unitKindOf (n : Nat) : Option FrameKind :=
  if n = 2 then some .ack else if n = 3 then some .nak else if n = 4 then some .arrived else none

/-- The check byte: the complement of the sum, modulo 256, of bytes 1 and 2 (R136, R187). -/
def checkByte (b1 b2 : Byte) : Byte := ~~~(b1 + b2)

/-- The three bytes of a frame (R185). -/
def frameBytes (k : FrameKind) (p : Pedal) (depth : Nat) : List Byte :=
  let b1 : Byte := BitVec.ofNat 8 (16 * frameKindCode k + pedalNumber p)
  let b2 : Byte := BitVec.ofNat 8 depth
  [b1, b2, checkByte b1 b2]

/-- A frame of three bytes by the tests of R137: its kind, pedal and depth, or none if it is ignored. -/
def parseFrame (b1 b2 b3 : Byte) : Option (FrameKind × Pedal × Nat) :=
  if b3 = checkByte b1 b2 ∧ b2.toNat ≤ 15 then
    match unitKindOf (b1.toNat / 16), pedalOf (b1.toNat % 16) with
    | some k, some p => some (k, p, b2.toNat)
    | _, _ => none
  else none

end Sys2Proof.Machine
end

