-- ==== Sys2Proof/Machine/PedalOps.lean ====
section
/-! DEFINITION. Pedal Link Controller: moves, frames, replies, faults, arrivals, the sostenuto set (chapter 8). -/

namespace Sys2Proof.Machine

/-! ## Sending (R139) -/

/-- The pedal whose waiting move has the earliest due instant; with equal instants the lower pedal number (R139). -/
def choosePedal (u : PedalUnit) : Option (Pedal × Move) :=
  allPedals.foldl
    (fun best p =>
      match (u.pedal p).waiting with
      | none => best
      | some m =>
        match best with
        | none => some (p, m)
        | some (_, m') => if m.due < m'.due then some (p, m) else best)
    none

/-- With the link IDLE and a move waiting, one move is sent (R139). -/
def linkSend (s : State) : State :=
  match s.pedals.link with
  | .idle =>
    match choosePedal s.pedals with
    | none => s
    | some (p, m) =>
      setLink (.sending { pedal := p, depth := m.depth } s.now none) (updPedal p (fun r => { r with waiting := none }) s)
  | .sending _ _ _ => s
  | .awaiting _ _ => s

/-! ## Moves handed to a pedal (R135) -/

/-- A move handed to pedal p: discarded in FAULT, else it becomes the waiting move. -/
def putMove (p : Pedal) (m : Move) (s : State) : State :=
  if (s.pedals.pedal p).motion = .fault then s else updPedal p (fun r => { r with waiting := some m }) s

/-- A move handed to pedal p, and the link's choice (R135, R139). -/
def handMove (p : Pedal) (m : Move) (s : State) : State := linkSend (putMove p m s)

/-- Every pedal is sent to 0, due at once, and its last scheduled target becomes 0 (R58, R59, R61). -/
def pedalsToZero (s : State) : State :=
  allPedals.foldl
    (fun s p => handMove p { depth := 0, due := s.now } (updPedal p (fun r => { r with target := 0 }) s)) s

/-! ## Faults (R143) -/

/-- The frame in flight is abandoned if it is pedal p's (R143, step 2). -/
def abandonFrame (p : Pedal) (s : State) : State := if s.pedals.inFlight p then setLink .idle s else s

/-- Pedal p goes to FAULT (R143). -/
def faultPedal (p : Pedal) (cause : Word) (s : State) : State :=
  let s1 := abandonFrame p (updPedal p (fun r => { r with motion := .fault, travel := none, waiting := none }) s)
  let s2 := if p = .sostenuto then setSost [] s1 else s1
  linkSend (raise .pedalFault (toWord (pedalNumber p)) cause s2)

/-! ## Replies (R140 to R142) -/

/-- An ACK frame is taken (R141), or ignored (R140). -/
def takeAck (p : Pedal) (depth : Nat) (s : State) : State :=
  match s.pedals.link with
  | .idle => s
  | .sending _ _ _ => s
  | .awaiting f _ =>
    if f = { pedal := p, depth := depth } then
      linkSend
        (setLink .idle
          (updPedal p
            (fun r => { r with motion := .moving, retries := 0, travel := some (s.now + 1000 * s.pedals.travelLimit) }) s))
    else s

/-- The frame in flight is sent again with the newest depth handed to its pedal, or the pedal faults (R142). -/
def retransfer (f : Frame) (s : State) : State :=
  if (s.pedals.pedal f.pedal).retries < s.pedals.maxRetries then
    let depth := match (s.pedals.pedal f.pedal).waiting with
      | none => f.depth
      | some m => m.depth
    setLink (.sending { pedal := f.pedal, depth := depth } s.now none)
      (updPedal f.pedal (fun r => { r with retries := r.retries + 1, waiting := none }) s)
  else faultPedal f.pedal faultRetries s

/-- A NAK frame is taken (R142), or ignored (R140). -/
def takeNak (p : Pedal) (depth : Nat) (s : State) : State :=
  match s.pedals.link with
  | .idle => s
  | .sending _ _ _ => s
  | .awaiting f _ => if f = { pedal := p, depth := depth } then retransfer f s else s

/-! ## Arrivals and the sostenuto set (R144, R145) -/

/-- The keys that are FIRING or HOLDING. -/
def State.soundingKeys (s : State) : List Key :=
  allKeys.filter (fun k => decide ((s.key k).state = .firing) || decide ((s.key k).state = .holding))

/-- The sostenuto set at an arrival of pedal 3 (R145). -/
def sostenutoArrives (depth : Nat) (s : State) : State :=
  if 8 ≤ depth then
    raise .sostenutoCapture 3 (toWord s.soundingKeys.length) (setSost s.soundingKeys s)
  else if s.pedals.sost = [] then s
  else raise .sostenutoClear 3 (toWord s.pedals.sost.length) (setSost [] s)

/-- An arrival at another depth while settling is awaited sends the pedal to 0 (R144). -/
def returnToZero (p : Pedal) (depth : Nat) (s : State) : State :=
  if s.awaitsSettling ∧ depth ≠ 0 ∧ (s.pedals.pedal p).waiting = none ∧ ¬ s.pedals.inFlight p then
    handMove p { depth := 0, due := s.now } s
  else s

/-- An ARRIVED frame is taken (R144); ignored for a pedal in FAULT. -/
def takeArrived (p : Pedal) (depth : Nat) (s : State) : State :=
  if (s.pedals.pedal p).motion = .fault then s
  else
    let s1 := updPedal p (fun r => { r with depth := depth, motion := .atRest, travel := none }) s
    returnToZero p depth (if p = .sostenuto then sostenutoArrives depth s1 else s1)

/-! ## The receiver (R137) -/

/-- A completed frame is tested and taken, or ignored (R137). -/
def takeFrame (b1 b2 b3 : Byte) (s : State) : State :=
  match parseFrame b1 b2 b3 with
  | none => s
  | some (.move, _, _) => s
  | some (.ack, p, d) => takeAck p d s
  | some (.nak, p, d) => takeNak p d s
  | some (.arrived, p, d) => takeArrived p d s

/-- The partial frame that a byte which starts at `start` finds: dropped after a gap of more than 200 us (R137). -/
def State.partialAt (s : State) (start : Instant) : List Byte :=
  if s.pedals.rxEnd + Config.gapLimit < start then [] else s.pedals.rxBytes

/-- The bytes assembled so far are kept, or make a frame (R137). -/
def assemble (bytes : List Byte) (s : State) : State :=
  match bytes with
  | [b1, b2, b3] => takeFrame b1 b2 b3 (setRx [] s.now s)
  | _ => setRx bytes s.now s

/-- A well-framed byte that ends now (R137). -/
def receiveByte (b : Byte) (s : State) : State := assemble (s.partialAt (s.now - Config.byteTime) ++ [b]) s

/-- A frame completes now: the bytes of it that the receiver does not hold yet arrive back to back (log 18). -/
def receiveFrame (bytes : List Byte) (s : State) : State :=
  let rest := bytes.drop s.pedals.rxBytes.length
  let held := s.partialAt (s.now - Config.byteTime * rest.length)
  assemble (held ++ bytes.drop held.length) s

/-! ## The pedal initialisation (R147) -/

/-- The end of the byte in progress at `now` of a frame begun at `start` (log 19). -/
def byteEnd (start now : Instant) : Instant :=
  min (start + Config.frameTime) (start + Config.byteTime * ((now - start) / Config.byteTime + 1))

/-- The link at the initialisation: AWAITING ends at once, SENDING at the end of the byte in progress (R147, step 2). -/
def Link.abort (now : Instant) : Link → Link
  | .idle => .idle
  | .awaiting _ _ => .idle
  | .sending f start none => .sending f start (some (byteEnd start now))
  | .sending f start (some e) => .sending f start (some e)

/-- The pedal initialisation at a load's validation success (R147). -/
def initPedals (s : State) : State :=
  let s1 := setPedalCopies s.shadow.pedalRetries s.shadow.replyTimeout s.shadow.travelLimit s
  let s2 := setLink (s1.pedals.link.abort s1.now) s1
  let s3 := allPedals.foldl (fun s p => updPedal p (fun _ => {}) s) s2
  let s4 := setSost [] s3
  linkSend (allPedals.foldl (fun s p => putMove p { depth := 0, due := s.now } s) s4)

/-! ## Output (R136) -/

/-- The level of PLTX (R136): the stop level at rest; while a frame is sent, the bit of the byte in progress, 4 us each. -/
def State.pltx (s : State) : Bool :=
  match s.pedals.link with
  | .idle => true
  | .awaiting _ _ => true
  | .sending f start _ =>
    let t := (s.now - start) / 4
    match (frameBytes .move f.pedal f.depth)[t / 10]? with
    | none => true
    | some b => lineBit b (t % 10)

end Sys2Proof.Machine
end

