-- ==== Sys2Proof/Machine/ScheduleOps.lean ====
section
/-! DEFINITION. Strike Schedule: order, capacity, replacement and dispatch of entries (chapter 5). -/

namespace Sys2Proof.Machine

/-- An entry is inserted after every entry due no later than it and before every later one (R85). -/
def insertEntry (e : Entry) : List Entry → List Entry
  | [] => [e]
  | x :: rest => if x.due ≤ e.due then x :: insertEntry e rest else e :: x :: rest

/-- The entry is a MOVE of pedal p. -/
def isMoveOf (p : Pedal) (e : Entry) : Bool :=
  match e.act with
  | .move p' _ => decide (p' = p)
  | .strike _ _ _ => false
  | .release _ _ => false

/-- The entry is a STRIKE. -/
def isStrike (e : Entry) : Bool :=
  match e.act with
  | .strike _ _ _ => true
  | .release _ _ => false
  | .move _ _ => false

/-- The STRIKE with the latest due instant; among equals the one that stands last (R89). -/
def latestStrike (l : List Entry) : Option Entry :=
  l.foldl
    (fun best e =>
      if isStrike e then
        match best with
        | none => some e
        | some b => if b.due ≤ e.due then some e else best
      else best)
    none

/-- The list without the last occurrence of an entry. -/
def eraseLast (e : Entry) (l : List Entry) : List Entry := (l.reverse.erase e).reverse

/-- The key of a STRIKE as the subject of its report. -/
def strikeSubject (e : Entry) : Word :=
  match e.act with
  | .strike k _ _ => keyWord k
  | .release k _ => keyWord k
  | .move p _ => toWord (pedalNumber p)

/-- A DROP_FULL report for a STRIKE (R88, R89). -/
def reportFull (e : Entry) (s : State) : State := raise .dropFull (strikeSubject e) e.tag s

/-- An entry takes its place in the schedule (R85). -/
def insertSched (e : Entry) (s : State) : State := setSched (insertEntry e s.sched) s

/-- An entry is handed on according to its kind (R91, R93). -/
def dispatchEntry (e : Entry) (s : State) : State :=
  match e.act with
  | .release k serial => takeRelease k serial s
  | .move p depth => handMove p { depth := depth, due := e.due } s
  | .strike k level serial =>
    enterQueue
      { key := k, due := e.due, level := level, serial := serial, tag := e.tag
        expiry := e.due + Config.unit * s.shadow.lateLimit } s

/-- The schedule without pedal p's MOVE, which a newer MOVE replaces without report (R87). -/
def dropMove (p : Pedal) (s : State) : State := setSched (s.sched.filter (fun e => !isMoveOf p e)) s

/-- An entry that is already due when it is made is dispatched as it is made (R86); an older MOVE of the same pedal goes
first (R87). -/
def makeDueEntry (e : Entry) (s : State) : State :=
  match e.act with
  | .move p _ => dispatchEntry e (dropMove p s)
  | .strike _ _ _ => dispatchEntry e s
  | .release _ _ => dispatchEntry e s

/-- A RELEASE, or a MOVE with no MOVE of its pedal, made while the schedule is full (R89). -/
def makeIntoFull (e : Entry) (s : State) : State :=
  match latestStrike s.sched with
  | some b => insertSched e (reportFull b (setSched (eraseLast b s.sched) s))
  | none =>
    match e.act with
    | .release k _ => raise .earlyRelease (keyWord k) earlyScheduleFull (dispatchEntry e s)
    | .move _ _ => dispatchEntry e s
    | .strike _ _ _ => s

/-- An entry is made by a decode (R85 to R89). -/
def makeEntry (e : Entry) (s : State) : State :=
  if e.due ≤ s.now then makeDueEntry e s
  else
    match e.act with
    | .strike _ _ _ =>
      if s.sched.length < Config.scheduleSize then insertSched e s else reportFull e s
    | .release _ _ =>
      if s.sched.length < Config.scheduleSize then insertSched e s else makeIntoFull e s
    | .move p _ =>
      if s.sched.any (isMoveOf p) then insertSched e (dropMove p s)
      else if s.sched.length < Config.scheduleSize then insertSched e s
      else makeIntoFull e s

/-- The playback states in which the schedule dispatches (R92). -/
def State.dispatches (s : State) : Bool :=
  match s.clock.state with
  | .playing => true
  | .starved => true
  | .held => true
  | .ending => true
  | .idle => false
  | .loading => false
  | .ready => false
  | .stopping => false

/-- The entries whose due instants have arrived, dispatched in their order one after another (R91). -/
def dispatchLoop : Nat → State → State
  | 0, s => s
  | n + 1, s =>
    match s.sched with
    | [] => s
    | e :: rest => if e.due ≤ s.now then dispatchLoop n (dispatchEntry e (setSched rest s)) else s

end Sys2Proof.Machine
end

