-- ==== Sys2Proof/Machine/ClockOps.lean ====
section
/-! DEFINITION. Roll Clock: dues, starvation, holds, endings, STOP and SILENCE (chapter 3), with the fetch request of R13. -/

namespace Sys2Proof.Machine

/-- The head slot index as the subject of a record. -/
def State.headWord (s : State) : Word := toWord s.ring.head.val

/-- The cause as the detail of a record (R184). -/
def causeWord (c : Cause) : Word := toWord (causeCode c)

/-! ## Holds (R52, R53) -/

/-- Entry to HELD (R53). -/
def enterHeld (c : Cause) (s : State) : State :=
  raise .held 0 (causeWord c)
    (updClock
      (fun k =>
        { k with nextDue := none, waitingDue := none, starveTimer := none, starvedSince := none, pendingHold := none })
      (setPlay .held c s))

/-- A request that finds a hold already pending leaves it unchanged (R52). -/
def pendHold (c : Cause) (s : State) : State := updClock (fun k => { k with pendingHold := k.pendingHold.or (some c) }) s

/-- A HOLD command or a BUS cue hold (R52): HELD at once, or the pending hold of the line in progress. -/
def requestHold (c : Cause) (s : State) : State :=
  match s.clock.state with
  | .playing => if s.clock.lineInProgress then pendHold c s else enterHeld c s
  | .starved => enterHeld c s
  | .idle => s
  | .loading => s
  | .ready => s
  | .held => s
  | .ending => s
  | .stopping => s

/-! ## Dues, fetches and starvation (R13, R44, R49) -/

/-- The starvation timer's expiry instant: STARVE_LIMIT milliseconds, none for 0 (R49). -/
def State.starveExpiry (s : State) : Option Instant :=
  if s.shadow.starveLimit = 0 then none else some (s.now + 1000 * s.shadow.starveLimit)

/-- A due finds the head not ready (R49). -/
def starve (s : State) : State :=
  raise .starved s.headWord s.clock.expected
    (updClock
      (fun k =>
        { k with
          nextDue := none
          waitingDue := none
          lineInProgress := false
          lineDue := none
          pendingHold := none
          starvedSince := some s.now
          starveTimer := s.starveExpiry })
      (setPlay .starved .starvation s))

/-- The head slot becomes CURRENT and its fetch begins (R13); the line is in progress with its due instant (R44). `frozen`
marks a line that finds the level frozen at starvation (R79). -/
def startFetch (frozen : Bool) (due : Instant) (s : State) : State :=
  updClock (fun k => { k with lineInProgress := true, lineDue := some due })
    (setFetch (some { slot := s.ring.head, count := 0, levelFrozen := frozen }) []
      (updSlot s.ring.head (fun r => { r with state := .current }) s))

/-- The Roll Clock asks for the head in PLAYING: a fetch, or starvation (R13, R44). -/
def requestFetch (frozen : Bool) (due : Instant) (s : State) : State :=
  if s.ring.headReady then startFetch frozen due s else starve s

/-- The next due is set from the TEMPO in force (R43, R44). -/
def setNextDue (t : Instant) (s : State) : State :=
  updClock (fun k => { k with nextDue := some (t + s.interval), waitingDue := none }) s

/-- A due is taken at its instant (R44). -/
def takeDue (t : Instant) (s : State) : State := requestFetch false t (setNextDue t s)

/-- The time spent STARVED in whole milliseconds, at most 65535 (R42). -/
def State.starvedMs (s : State) : Nat :=
  match s.clock.starvedSince with
  | none => 0
  | some t => min 65535 ((s.now - t) / 1000)

/-- The starved clock is fed (R50); the fed line is to find the level frozen at starvation (R79). -/
def feed (s : State) : State :=
  startFetch true s.now
    (setNextDue s.now
      (raise .fed s.headWord (toWord s.starvedMs)
        (updClock (fun k => { k with starveTimer := none, starvedSince := none }) (setPlay .playing .noCause s))))

/-! ## Ending (R57, R58) -/

/-- The end of a step's marks (R56): step in progress clears and the pending hold returns to none. -/
def clearStep (s : State) : State := updClock (fun k => { k with stepInProgress := false, pendingHold := none }) s

/-- ENDING is entered (R57). -/
def enterEnding (s : State) : State :=
  raise .ended 0 (toWord s.sched.length)
    (updClock
      (fun k =>
        { k with nextDue := none, waitingDue := none, pendingHold := none, stepInProgress := false, drained := false })
      (setPlay .ending .ending s))

/-- READY is entered from ENDING or STOPPING (R58, R60): the STOPPED report, then the ring reset. -/
def enterReady (c : Cause) (s : State) : State :=
  ringReset (raise .stopped 0 (causeWord c) (setPlay .ready c s))

/-! ## STOP and SILENCE (R59, R61) -/

/-- A part access whose request was abandoned after its grant completes with its word dropped. -/
def Access.dropFetch : Access → Access
  | .lineFetch slot addr _ => .lineFetch slot addr false
  | .setupLoad off live => .setupLoad off live
  | .argRead => .argRead
  | .reportWord addr w live => .reportWord addr w live
  | .statusWord off w => .statusWord off w

/-- STOP or SILENCE takes a line in fetch or held CURRENT (abandoned, R20), or in decode (run on, R39). -/
def abandonLine (s : State) : State :=
  match s.track.decode with
  | some d => updTrack (fun t => { t with decode := some { d with muted := true } }) s
  | none =>
    if s.clock.lineInProgress then
      updClock (fun k => { k with lineInProgress := false, lineDue := none })
        (setExempt false (setOwner (s.arb.owner.map Access.dropFetch) (freeHead s)))
    else s

/-- Steps 2 to 5 of STOP (R59): dues, hold, step and timer cleared, the line abandoned, the schedule and queue emptied. -/
def stopClock (s : State) : State :=
  emptyQueue
    (setSched []
      (abandonLine
        (updClock
          (fun k =>
            { k with
              nextDue := none
              waitingDue := none
              pendingHold := none
              stepInProgress := false
              starveTimer := none
              starvedSince := none }) s)))

/-- STOPPING is entered by STOP or by starvation (R59). -/
def enterStopping (c : Cause) (s : State) : State := pedalsToZero (stopKeys (stopClock (setPlay .stopping c s)))

/-- STOPPING is entered by SILENCE, or its cause becomes SILENCE (R61). -/
def enterSilence (s : State) : State := pedalsToZero (silenceKeys (stopClock (setPlay .stopping .silence s)))

end Sys2Proof.Machine
end

