-- ==== Sys2Proof/Machine/CueOps.lean ====
section
/-! DEFINITION. Cue Unit: agreement, the three tests, matches, arming and clearing (chapter 9). -/

namespace Sys2Proof.Machine

/-- A value agrees with a pattern of value and mask (R149). -/
def agrees (x value mask : Nat) : Bool := decide (x &&& mask = value &&& mask)

/-- Field words of a cue block (section 12.2). -/
def State.cueNat (s : State) (ch : Channel) (n : Nat) : Nat := (s.shadow.cueWord ch n).toNat

/-- A two-word field of a cue block: 21 bits, low word first (R186). -/
def State.cueAddr (s : State) (ch : Channel) (n : Nat) : Nat := s.cueNat ch n + 65536 * s.cueNat ch (n + 1)

def Cue.flag (c : Cue) : Channel → Bool
  | .a => c.flagA
  | .b => c.flagB

/-- A channel takes part in a test (R151), its KIND apart: active, not spent, and B in sequential mode armed before the
test began. -/
def State.takesPart (s : State) (ch : Channel) (armedBefore : Bool) : Bool :=
  s.watching && !s.cue.flag ch &&
    match ch with
    | .a => true
    | .b => !s.shadow.sequential || armedBefore

/-- The three kinds of test (section 9.2). -/
inductive CueEvent where
  | before
  | after
  | bus
deriving DecidableEq, Repr

/-- The hold cause of a channel (R155). -/
def cueCause : Channel → Cause
  | .a => .cueA
  | .b => .cueB

/-- The hold request of a match (R155): a BEFORE hold takes the clock to HELD with the line kept CURRENT and exempt (R156),
an AFTER hold is pending for this line's boundary, a BUS hold is taken as R52 states. -/
def cueHold (ev : CueEvent) (c : Cause) (s : State) : State :=
  match ev with
  | .before =>
    if s.clock.state = .playing then setExempt true (enterHeld (s.clock.pendingHold.getD c) s) else s
  | .after => if s.clock.state = .playing then pendHold c s else s
  | .bus => requestHold c s

/-- The channel number as a record's subject (R155). -/
def channelWord : Channel → Word
  | .a => 1
  | .b => 2

/-- The flags after a match (R155, R157): the channel's flag is set; A in sequential mode arms B; B's match disarms B. -/
def flagMatch (ch : Channel) (s : State) : State :=
  match ch with
  | .a => setCueFlags true s.cue.flagB (s.cue.bArmed || s.shadow.sequential) s
  | .b => setCueFlags s.cue.flagA true false s

/-- The action of a match is taken: HOLD, unless the channel is A in sequential mode (R155, R157). -/
def State.actionHolds (s : State) (ch : Channel) : Bool :=
  decide (s.cueNat ch 1 = 1) &&
    match ch with
    | .a => !s.shadow.sequential
    | .b => true

/-- A channel matches (R155). -/
def cueMatch (ch : Channel) (ev : CueEvent) (detail : Word) (s : State) : State :=
  let s1 := raise .matched (channelWord ch) detail (flagMatch ch s)
  if s.actionHolds ch then cueHold ev (cueCause ch) s1 else s1

/-- One channel's part of a BEFORE test on a line's tag (R152). -/
def beforeChannel (ch : Channel) (armed : Bool) (tag : Word) (s : State) : State :=
  if s.takesPart ch armed ∧ s.cueNat ch 0 = 1 ∧ s.cueNat ch 2 = 0 ∧ agrees tag.toNat (s.cueNat ch 3) (s.cueNat ch 4)
  then cueMatch ch .before tag s else s

/-- The BEFORE test of an accepted line: channel A, then channel B (R152). -/
def beforeTest (tag : Word) (s : State) : State :=
  beforeChannel .b s.cue.bArmed tag (beforeChannel .a s.cue.bArmed tag s)

/-- The track in a map slot is confirmed open; an UNASSIGNED slot reads as closed (R153). -/
def Track.slotOpen (t : Track) (slot : Nat) : Bool :=
  decide ((t.map.get (Fin.ofNat 112 slot)).fn ≠ 0) && (t.rows.get (Fin.ofNat 112 slot)).isOpen

/-- One channel's part of an AFTER test (R153). -/
def afterChannel (ch : Channel) (armed : Bool) (tag : Word) (s : State) : State :=
  if s.takesPart ch armed ∧ s.cueNat ch 0 = 1 ∧ s.cueNat ch 2 = 1 ∧ agrees tag.toNat (s.cueNat ch 3) (s.cueNat ch 4)
      ∧ (s.cueNat ch 5 = 0xFFFF ∨ s.track.slotOpen (s.cueNat ch 5) = true)
  then cueMatch ch .after tag s else s

/-- The AFTER test of a decode's stage 8 (R153). -/
def afterTest (tag : Word) (s : State) : State :=
  afterChannel .b s.cue.bArmed tag (afterChannel .a s.cue.bArmed tag s)

/-- The cycle kind matches (R154): READ, WRITE or ANY. -/
def cycleKindOk (kind : Nat) (isWrite : Bool) : Bool := if kind = 0 then !isWrite else if kind = 1 then isWrite else true

/-- One channel's part of a BUS test (R154). -/
def busChannel (ch : Channel) (armed isWrite : Bool) (addr : Nat) (data : Word) (s : State) : State :=
  if s.takesPart ch armed ∧ s.cueNat ch 0 = 2 ∧ cycleKindOk (s.cueNat ch 6) isWrite
      ∧ agrees addr (s.cueAddr ch 7) (s.cueAddr ch 9) ∧ agrees data.toNat (s.cueNat ch 11) (s.cueNat ch 12)
  then cueMatch ch .bus (toWord addr) s else s

/-- The BUS test of a completed processor-port cycle (R154). -/
def busTest (isWrite : Bool) (addr : Nat) (data : Word) (s : State) : State :=
  busChannel .b s.cue.bArmed isWrite addr data (busChannel .a s.cue.bArmed isWrite addr data s)

/-- The BUS test of a cycle: a write shows the data driven, a read the word returned (R154). -/
def showCycle (c : ProcCycle) (s : State) : State :=
  busTest c.isWrite c.cueAddr (laneData c.lanes (if c.isWrite then c.data else readWord s.mem c.addr)) s

/-- A taken write to a word of a channel's block clears its flag and B-armed (R158). -/
def clearByBlock (ch : Channel) (s : State) : State :=
  match ch with
  | .a => setCueFlags false s.cue.flagB false s
  | .b => setCueFlags s.cue.flagA false false s

/-- All three are cleared (R158). -/
def clearCues (s : State) : State := setCueFlags false false false s

/-- CUE_CLEAR with a channel mask of 1, 2 or 3 (R158). -/
def clearByMask (mask : Nat) (s : State) : State :=
  if mask = 1 then setCueFlags false s.cue.flagB false s
  else if mask = 2 then setCueFlags s.cue.flagA false s.cue.bArmed s
  else if mask = 3 then clearCues s
  else s

end Sys2Proof.Machine
end

