-- ==== Sys2Proof/Machine/LineOps.lean ====
section
/-! DEFINITION. The path of one line: the end of its fetch, the eight decode stages, the line boundary (chapters 1, 2, 3 and 4). -/

namespace Sys2Proof.Machine

/-! ## The line buffer -/

/-- A word of the line buffer. -/
def Ring.lineWord (r : Ring) (w : Nat) : Word := r.buffer.getD w 0

/-- The tag of the line in the buffer. -/
def Ring.lineTag (r : Ring) : Word := r.lineWord 0

/-- A cell is open: bit column mod 16 of word 1 + column / 16 is set (R184). -/
def Ring.cellOpen (r : Ring) (col : Nat) : Bool := (r.lineWord (1 + col / 16)).getLsbD (col % 16)

/-- The sum, modulo 65536, of words 0 to 16 (R15, R187). -/
def lineSum (words : List Word) : Word := (words.take 17).foldl (· + ·) 0

/-! ## Decode begin (R23, R81) -/

/-- The decode sample, from the Setup Shadow (R81). -/
def takeSample (sh : Shadow) : Sample :=
  { normal := Bank.tabulate 32 sh.normalMap
    softMap := Bank.tabulate 32 sh.softMap
    accentBass := sh.accentBass
    accentTreble := sh.accentTreble
    voices := Bank.tabulate 88 (fun i => keyWordVoice (sh.word (0x200 + 2 * i))) }

/-- A decode begins: the last decoded tag, the decode sample, stage 1 next (R23, R81). The line finds the frozen level until
the stage `through` is complete; 0 for a line that does not (R79). -/
def beginDecode (through : Nat) (s : State) : State :=
  updTrack (fun t => { t with decode := some { frozenThrough := through } })
    (setExprRest s.expr.soft s.expr.copies (some (takeSample s.shadow)) (setLastTag s.ring.lineTag s))

/-- A line held CURRENT by a BEFORE hold is decoded from the buffer at a due instant, by RESUME or by STEP (R54, R55). -/
def decodeHeld (through : Nat) (due : Instant) (s : State) : State :=
  beginDecode through (updClock (fun k => { k with lineInProgress := true, lineDue := some due }) s)

/-! ## The end of a fetch (R14 to R18, R48, R56) -/

/-- The line is accepted: the BEFORE test, then the decode unless a BEFORE hold has taken effect (R18, R152, R156).
A fed line finds the frozen level at all its drive level questions (R79). -/
def acceptLine (frozen : Bool) (s : State) : State :=
  let s1 := beforeTest s.ring.lineTag (setExempt false s)
  if s1.cue.exempt then s1 else beginDecode (if frozen then Config.questionStage else 0) s1

/-- The same due is offered to the new head after a discard: in PLAYING it is fetched or the clock starves (R48); in a step
it is fetched, or the step ends with no line decoded (R56). The line that takes the due of a fed line counts as the fed
one (R79, log 35). -/
def reofferDue (frozen : Bool) (s : State) : State :=
  match s.clock.state with
  | .playing => requestFetch frozen (s.clock.lineDue.getD s.now) s
  | .held =>
    if s.ring.headReady then startFetch frozen (s.clock.lineDue.getD s.now) s
    else clearStep (updClock (fun k => { k with lineInProgress := false, lineDue := none }) s)
  | .idle => s
  | .loading => s
  | .ready => s
  | .starved => s
  | .ending => s
  | .stopping => s

/-- A fetched line is discarded with its report, whose subject is its slot (R15, R16, R17). -/
def discardLine (frozen : Bool) (k : ReportKind) (detail : Word) (s : State) : State :=
  reofferDue frozen (raise k s.headWord detail (freeHead s))

/-- The fetch has ended: the check, then the tag (R15, R16, R18). -/
def fetchEnds (frozen : Bool) (s : State) : State :=
  let s1 := setFetch none s.ring.buffer s
  if lineSum s.ring.buffer ≠ s.ring.lineWord 17 then discardLine frozen .check (lineSum s.ring.buffer) s1
  else if s.ring.lineTag ≠ s.clock.expected then discardLine frozen .sequence s.ring.lineTag s1
  else acceptLine frozen s1

/-- A word of the fetch has been read (R14). -/
def fetchWord (w : Word) (s : State) : State :=
  match s.ring.fetch with
  | none => s
  | some f =>
    let s1 := setFetch (some { f with count := f.count + 1 }) (s.ring.buffer ++ [w]) s
    if f.count + 1 = 18 then fetchEnds f.levelFrozen s1 else s1

/-! ## Stage 1: tracking (R25 to R27) -/

/-- The edge: the lowest closed column among columns 0 to 63 (R25). -/
def Ring.edge (r : Ring) : Option Nat := (List.range 64).find? (fun c => !r.cellOpen c)

/-- An offset seen on a line with an edge: the candidate and its count after it (R25). -/
def nextCandidate (t : Track) (off : Int) : Option Int × Nat :=
  if off = t.shift then (none, 0)
  else if t.candidate = some off then (some off, t.candidateCount + 1)
  else (some off, 1)

/-- The candidate has persisted: a new shift, or the pending hold TRACKING (R26). -/
def actOnCandidate (off : Int) (s : State) : State :=
  let s1 := updTrack (fun t => { t with candidate := none, candidateCount := 0 }) s
  if -8 ≤ off ∧ off ≤ 8 then raise .shift (signedWord off) (signedWord s.track.shift) (setShift off s1)
  else updTrack (fun t => { t with pendingHold := some .tracking }) s1

/-- A line with an edge (R25). -/
def trackEdge (off : Int) (s : State) : State :=
  let c := nextCandidate s.track off
  let s1 := updTrack (fun t => { t with noEdge := 0, candidate := c.1, candidateCount := c.2 }) s
  if off ≠ s.track.shift ∧ s.track.trackPersist ≤ c.2 then actOnCandidate off s1 else s1

/-- A line without an edge (R27). -/
def trackNoEdge (s : State) : State :=
  if s.track.paperLimit ≤ s.track.noEdge + 1 then
    updTrack
      (fun t => { t with candidate := none, candidateCount := 0, noEdge := 0, pendingHold := some .paper }) s
  else updTrack (fun t => { t with candidate := none, candidateCount := 0, noEdge := t.noEdge + 1 }) s

/-- Stage 1. -/
def stageTracking (s : State) : State :=
  match s.ring.edge with
  | none => trackNoEdge s
  | some c => trackEdge ((c : Int) - (s.track.edgeNominal : Int)) s

/-! ## Stage 2: raw reading and confirmation (R28, R29) -/

/-- The open cells of a band under a shift (R28). R28 ends that cells of columns 0 to 63, once the edge is found, have no
effect on any track, while R22 lets a band lie in columns 8 to 63: the model reads the cells of such a band like those of
any other (DEDUCED, log 31). -/
def openCells (r : Ring) (e : MapEntry) (shift : Int) : Nat :=
  ((List.range e.width).filter (fun (i : Nat) => r.cellOpen ((e.first : Int) + shift + (i : Int)).toNat)).length

/-- The track is raw-open in this line (R28). -/
def rawOpen (r : Ring) (t : Track) (e : MapEntry) : Bool := decide (t.holeMin ≤ openCells r e t.shift)

/-- A row after a raw reading (R29). -/
def confirmRow (t : Track) (row : TrackRow) (raw : Bool) : TrackRow :=
  if raw = row.isOpen then { row with count := 0 }
  else if row.count + 1 ≥ (if row.isOpen then t.closeConfirm else t.openConfirm) then { isOpen := raw, count := 0 }
  else { row with count := row.count + 1 }

/-- The row of a map slot after stage 2; the row of an UNASSIGNED slot is left alone. -/
def rowAfter (r : Ring) (t : Track) (slot : Nat) : TrackRow :=
  let e := t.map.get (Fin.ofNat 112 slot)
  let row := t.rows.get (Fin.ofNat 112 slot)
  if e.fn = 0 then row else confirmRow t row (rawOpen r t e)

/-- The map slots whose confirmed state goes to `b` in this line. -/
def slotsTurning (r : Ring) (t : Track) (b : Bool) : List Nat :=
  (List.range 112).filter
    (fun slot => decide ((t.rows.get (Fin.ofNat 112 slot)).isOpen ≠ b) && decide ((rowAfter r t slot).isOpen = b))

/-- Stage 2. -/
def stageConfirm (s : State) : State :=
  updTrack
    (fun t =>
      { t with
        rows := Bank.tabulate 112 (rowAfter s.ring t)
        decode :=
          t.decode.map
            (fun d => { d with opened := slotsTurning s.ring t true, closed := slotsTurning s.ring t false }) }) s

/-! ## Stage 3: expression inputs (R30, R70) -/

/-- A track function is confirmed open; an absent one reads as closed (R22). -/
def Track.fnOpen (t : Track) (fn : Nat) : Bool :=
  (List.range 112).any (fun slot => decide ((t.map.get (Fin.ofNat 112 slot)).fn = fn) && t.slotOpen slot)

/-- A side record after the hand-over; `first` is the code of its STEP1 track (R70). -/
def sideInputs (t : Track) (first exprBase : Nat) (side : Side) : Side :=
  let step := bit (t.fnOpen first) 0 + bit (t.fnOpen (first + 1)) 1 + bit (t.fnOpen (first + 2)) 2
  { side with
    step := step
    target := min 31 (exprBase + 3 * step) * 16
    swell := t.fnOpen (first + 3)
    fade := t.fnOpen (first + 4)
    rush := t.fnOpen (first + 5)
    accent := t.fnOpen (first + 6) }

/-- The Expression Unit's copy of EXPR_BASE (R67). -/
def Expression.base (e : Expression) : Nat :=
  match e.copies with
  | none => 0
  | some c => c.exprBase

/-- Stage 3. -/
def stageExpression (s : State) : State :=
  setExprRest (s.track.fnOpen 91) s.expr.copies s.expr.sample
    (setSides (sideInputs s.track 93 s.expr.base s.expr.bass) (sideInputs s.track 100 s.expr.base s.expr.treble) s)

/-! ## Stage 4: pedal targets (R31) -/

/-- The target depth of a pedal (R31). -/
def State.pedalTarget (s : State) (p : Pedal) : Nat :=
  match p with
  | .damper => if s.track.fnOpen 89 then 15 else if s.track.fnOpen 90 then s.shadow.halfDepth else 0
  | .soft => if s.track.fnOpen 91 then 15 else 0
  | .sostenuto => if s.track.fnOpen 92 then 15 else 0

/-- The due instant of the line in progress. -/
def State.lineDueAt (s : State) : Instant := s.clock.lineDue.getD s.now

/-- The due instant of an entry by its lead (R84). -/
def State.entryDue (s : State) (lead : Nat) : Instant := s.lineDueAt + Config.unit * (s.shadow.lookahead - lead)

/-- One pedal's part of stage 4 (R31). -/
def pedalStage (s : State) (p : Pedal) : State :=
  if s.pedalTarget p = (s.pedals.pedal p).target then s
  else
    makeEntry
      { act := .move p (s.pedalTarget p), due := s.entryDue (s.shadow.pedalLead p), tag := s.ring.lineTag }
      (updPedal p (fun r => { r with target := s.pedalTarget p }) s)

/-- Stage 4. -/
def stagePedals (s : State) : State := allPedals.foldl pedalStage s

/-! ## Stages 5 and 6: note-offs and note-ons (R33, R34, R66, R78) -/

/-- The NOTE track of key k is among the slots. -/
def Track.noteAmong (t : Track) (slots : List Nat) (k : Key) : Bool :=
  slots.any (fun slot => decide ((t.map.get (Fin.ofNat 112 slot)).fn = keyNumber k))

def State.lineOpened (s : State) : List Nat :=
  match s.track.decode with
  | none => []
  | some d => d.opened

def State.lineClosed (s : State) : List Nat :=
  match s.track.decode with
  | none => []
  | some d => d.closed

/-- One key's part of stage 5 (R33). -/
def noteOff (s : State) (k : Key) : State :=
  if s.track.noteAmong s.lineClosed k ∧ (s.key k).state ≠ .locked then
    makeEntry
      { act := .release k (s.track.serials.get k), due := s.entryDue s.shadow.releaseLead, tag := s.ring.lineTag } s
  else s

/-- The keys of stages 5 and 6, in ascending order, from a key index up to another (R33, R34). -/
def keysFrom (lo hi : Nat) : List Key := allKeys.filter (fun k => decide (lo ≤ k.val) && decide (k.val < hi))

/-- Stage 5, for the keys whose turn comes now. -/
def stageNoteOffs (keys : List Key) (s : State) : State := keys.foldl noteOff s

/-- The side of key k at this line (R66): true for TREBLE. -/
def isTreble (copies : ExprCopies) (sample : Sample) (k : Key) : Bool :=
  match (sample.voices.get k).side with
  | .auto => decide (copies.splitKey ≤ keyNumber k)
  | .bass => false
  | .treble => true

/-- A sum clamped to 1 to 127 (R78). -/
def clampDrive (z : Int) : Nat := if z < 1 then 1 else if 127 < z then 127 else z.toNat

/-- The drive level of a note-on of key k (R78). With no copies or no sample no line is ever decoded (R67). -/
def Expression.driveLevel (e : Expression) (k : Key) : Nat :=
  match e.copies, e.sample with
  | some c, some m =>
    let treble := isTreble c m k
    let side := if treble then e.treble else e.bass
    let i := Fin.ofNat 32 (side.level / 16)
    let entry := if e.soft then m.softMap.get i else m.normal.get i
    let accent := if side.accent then (if treble then m.accentTreble else m.accentBass) else 0
    clampDrive ((entry : Int) + (accent : Int) + (m.voices.get k).trim)
  | _, _ => 1

/-- The note serial counter of key k rises by one, modulo 256 (R32, R34). -/
def bumpSerial (k : Key) (s : State) : State :=
  updTrack (fun t => { t with serials := t.serials.modify k (· + 1) }) s

/-- The STRIKE entry of a note-on of key k (R34, R84). -/
def State.strikeEntry (s : State) (k : Key) : Entry :=
  let d := s.expr.driveLevel k
  { act := .strike k d (s.track.serials.get k), due := s.entryDue (s.curveRow d).lead, tag := s.ring.lineTag }

/-- One key's part of stage 6 (R34); a decode run on under STOP or SILENCE makes no entry (R39). -/
def noteOn (muted : Bool) (s : State) (k : Key) : State :=
  if s.track.noteAmong s.lineOpened k then
    let s1 := bumpSerial k s
    if muted ∨ (s1.key k).state = .locked then s1 else makeEntry (s1.strikeEntry k) s1
  else s

/-- Stage 6, for the keys whose turn comes now. -/
def stageNoteOns (muted : Bool) (keys : List Key) (s : State) : State := keys.foldl (noteOn muted) s

/-! ## Stage 7: END and CUE (R35) -/

/-- The CUE_MARK report for each map slot that opened and holds CUE: at most one, by R22. -/
def cueMarks (s : State) : State :=
  s.lineOpened.foldl
    (fun s slot =>
      if (s.track.map.get (Fin.ofNat 112 slot)).fn = 108 then raise .cueMark (toWord slot) (signedWord s.track.shift) s
      else s) s

/-- END opened in this line. -/
def State.endOpened (s : State) : Bool :=
  s.lineOpened.any (fun slot => decide ((s.track.map.get (Fin.ofNat 112 slot)).fn = 107))

/-- Stage 7; a decode run on under STOP or SILENCE marks no END (R39). -/
def stageMarks (muted : Bool) (s : State) : State :=
  let s1 := cueMarks s
  if s.endOpened && !muted then
    updTrack (fun t => { t with decode := t.decode.map (fun d => { d with endMark := true }) }) s1
  else s1

/-! ## The stage in turn (R23, R38, R39, R82) -/

/-- The work of stage 5 or 6 for the keys given. -/
def noteWork (d : Decode) (keys : List Key) (s : State) : State :=
  if d.stage = 6 then stageNoteOns d.muted keys s
  else if d.muted then s else stageNoteOffs keys s

/-- The work that completes the stage in turn; of stages 5 and 6, for the keys not reached yet. -/
def stageWork (d : Decode) (s : State) : State :=
  if d.stage = 1 then stageTracking s
  else if d.stage = 2 then stageConfirm s
  else if d.stage = 3 then stageExpression s
  else if d.stage = 4 then (if d.muted then s else stagePedals s)
  else if d.stage = 5 ∨ d.stage = 6 then noteWork d (keysFrom d.reached 88) s
  else if d.stage = 7 then stageMarks d.muted s
  else (if d.muted then s else afterTest s.ring.lineTag s)

/-- The next stage is up. -/
def nextStage (s : State) : State :=
  updTrack (fun t => { t with decode := t.decode.map (fun d => { d with stage := d.stage + 1, reached := 0 }) }) s

/-- The stage in turn goes on, or completes. Stages 5 and 6 take the keys one by one, and other events may be taken between
two keys (R38, R82): with a key given only the keys before it take their turn and the stage stays up (log 4). -/
def decodeOn (d : Decode) (upTo : Option Key) (s : State) : State :=
  match upTo with
  | none => nextStage (stageWork d s)
  | some k =>
    if d.stage = 5 ∨ d.stage = 6 then
      updTrack (fun t => { t with decode := t.decode.map (fun d => { d with reached := max d.reached k.val }) })
        (noteWork d (keysFrom d.reached k.val) s)
    else s

/-! ## The line boundary (R47, R56) -/

/-- The hold cause of a Track Reader hold. -/
def trackCause : TrackHold → Cause
  | .tracking => .tracking
  | .paper => .paper

/-- The line ends: not in progress, the slot freed, the head advanced, the decode over, the exempt mark gone (R47, R18). -/
def endLine (s : State) : State :=
  updTrack (fun t => { t with decode := none, pendingHold := none })
    (setExempt false (freeHead (updClock (fun k => { k with lineInProgress := false, lineDue := none }) s)))

/-- A step ends at its boundary (R56): HELD with its cause, or with the Track Reader's hold as its new cause. -/
def endStep (hold : Option TrackHold) (s : State) : State :=
  match hold with
  | none => clearStep s
  | some h => raise .held 0 (causeWord (trackCause h)) (setPlay .held (trackCause h) (clearStep s))

/-- A Track Reader hold is placed in the pending hold if none is pending (R47, R52). -/
def placeTrackHold (hold : Option TrackHold) (s : State) : State :=
  match hold with
  | none => s
  | some h => pendHold (trackCause h) s

/-- The transition at a boundary without END, outside a step: HELD by the pending hold, or the waiting due (R47). -/
def boundaryNext (s : State) : State :=
  match s.clock.pendingHold with
  | some c => enterHeld c s
  | none =>
    match s.clock.waitingDue with
    | some t => if s.clock.state = .playing then takeDue t s else s
    | none => s

/-- The line boundary (R47). -/
def lineBoundary (d : Decode) (s : State) : State :=
  let hold := s.track.pendingHold
  let s1 := setExpected (s.clock.expected + 1) (endLine s)
  if d.muted then s1
  else if d.endMark then enterEnding s1
  else if s.clock.stepInProgress then endStep hold s1
  else boundaryNext (placeTrackHold hold s1)

/-! ## Expression step (R71 to R73, R79) -/

/-- The line in progress is still to find the frozen level (R79): it was fed from STARVED and is in its fetch, or in a
decode with drive levels still to ask; or RESUME found it held CURRENT and its decode is not made yet. -/
def State.levelFrozen (s : State) : Bool :=
  s.ring.fetch.any (fun f => f.levelFrozen) || s.track.decode.any (fun d => decide (d.stage ≤ d.frozenThrough))

/-- The level after an expression step (R71). -/
def levelAfter (side : Side) (slow fast settle : Nat) : Nat :=
  let r := if side.rush then fast else slow
  if side.swell then (if side.fade then side.level else min Config.levelMax (side.level + r))
  else if side.fade then
    (if side.level ≤ side.target then side.level else max side.target (side.level - r))
  else if side.level ≤ side.target then min side.target (side.level + settle)
  else max side.target (side.level - settle)

/-- Both sides at an expression step, with the rates in the shadow (R71, R74). -/
def expressionMove (s : State) : State :=
  setSides
    { s.expr.bass with level := levelAfter s.expr.bass s.shadow.slowRate s.shadow.fastRate s.shadow.settleRate }
    { s.expr.treble with level := levelAfter s.expr.treble s.shadow.slowRate s.shadow.fastRate s.shadow.settleRate } s

end Sys2Proof.Machine
end

