-- ==== Sys2Proof/Machine/LoadOps.lean ====
section
/-! DEFINITION. LOAD: the reads, the checks, failure and the success of validation (section 10.6), and entry to IDLE. -/

namespace Sys2Proof.Machine

/-! ## Entry to IDLE (R63, R174, R178) -/

/-- What ends every entry to IDLE: the shadow is not loaded and the Report Writer is dormant (R167, R178). -/
def goDormant (s : State) : State := setLoaded false (setReport { s.report with active := false } s)

/-! ## The conditions that join several fields (R173) -/

/-- Two windows of bytes meet. -/
def windowsMeet (a n b m : Nat) : Bool := decide (a < b + m) && decide (b < a + n)

/-- The assigned entries of the track map, in map-slot order. -/
def assignedEntries (sh : Shadow) : List (Nat × MapEntry) :=
  ((List.range 112).map (fun i => (i, sh.mapEntry i))).filter (fun e => decide (e.2.fn ≠ 0))

/-- The higher slot of the first bad pair, taking the lower entries in turn. -/
def firstPairLow (bad : MapEntry → MapEntry → Bool) : List (Nat × MapEntry) → Option Nat
  | [] => none
  | x :: rest =>
    match rest.find? (fun y => bad x.2 y.2) with
    | some y => some y.1
    | none => firstPairLow bad rest

/-- The higher slot of the first bad pair, taking the higher entries in turn. -/
def firstPairHigh (bad : MapEntry → MapEntry → Bool) : List (Nat × MapEntry) → List (Nat × MapEntry) → Option Nat
  | _, [] => none
  | seen, y :: rest =>
    if seen.any (fun x => bad x.2 y.2) then some y.1 else firstPairHigh bad (seen ++ [y]) rest

/-- The higher slot of the first bad pair found, in map-slot order (log 12). -/
def badPair (bad : MapEntry → MapEntry → Bool) (l : List (Nat × MapEntry)) : Option Nat :=
  match firstPairLow bad l with
  | none => none
  | some j => some (if Config.pairByLowerEntry then j else (firstPairHigh bad [] l).getD j)

/-- One function assigned twice (condition 10). -/
def sameFunction (x y : MapEntry) : Bool := decide (x.fn = y.fn)

/-- Two bands overlap (condition 11). -/
def bandsOverlap (x y : MapEntry) : Bool := decide (x.first < y.first + y.width) && decide (y.first < x.first + x.width)

/-- The first offset of a list whose field fails a test. -/
def firstFault (l : List Nat) (bad : Nat → Bool) : Option Nat := l.find? bad

/-- The first word of a track map entry. -/
def mapOffset (slot : Nat) : Nat := 0x300 + 4 * slot

/-- The conditions of R173 in their order: none if all hold, the offset to report at the first that fails. -/
def loadConditionFault (pageBase : Nat) (sh : Shadow) : Option Nat :=
  let ringLen := 36 * sh.ringSlots
  let rptLen := 8 * sh.rptSize
  let entries := assignedEntries sh
  if sh.ringBase + ringLen > Config.memBytes then some offRingBase
  else if sh.rptBase + rptLen > Config.memBytes then some offRptBase
  else if windowsMeet sh.ringBase ringLen pageBase Config.pageSize then some offRingBase
  else if windowsMeet sh.rptBase rptLen pageBase Config.pageSize then some offRptBase
  else if windowsMeet sh.ringBase ringLen sh.rptBase rptLen then some offRptBase
  else if sh.rptSize ≤ sh.rptRead then some offRptRead
  else
    match firstFault (evens 0x0A6 0x0AC) (fun off => decide (sh.lookahead < sh.nat off)) with
    | some off => some off
    | none =>
      match (List.range 32).find? (fun r => decide (sh.lookahead < (sh.curveRow r).lead)) with
      | some r => some (0x500 + 4 * r)
      | none =>
        if sh.hotLimit ≤ sh.warmLimit then some 0x0BE
        else
          match badPair sameFunction entries with
          | some j => some (mapOffset j)
          | none =>
            match badPair bandsOverlap entries with
            | some j => some (mapOffset j)
            | none =>
              match entries.find? (fun e => decide (e.2.width < sh.holeMin)) with
              | some e => some (mapOffset e.1)
              | none =>
                if !cueBlockOk (fun n => (sh.cueWord .a n).toNat) then some offCueA
                else if !cueBlockOk (fun n => (sh.cueWord .b n).toNat) then some offCueB
                else none

/-! ## Failure (R174) -/

/-- A load fails at a word or condition, in the order of R174: the offset, the state, the ring, the keys, the shadow. -/
def loadFails (off : Nat) (s : State) : State :=
  goDormant (keysToIdle (ringReset (setPlay .idle .loadFault (setLoadFault off s))))

/-! ## Success of validation (R174) -/

/-- The Track Reader's copies and start values (R22, R24, R29). -/
def startTrack (t : Track) : Track :=
  { t with
    candidate := none
    candidateCount := 0
    noEdge := 0
    pendingHold := none
    rows := Bank.replicate 112 {} }

def copyTrack (sh : Shadow) (t : Track) : Track :=
  { startTrack t with
    map := Bank.tabulate 112 sh.mapEntry
    holeMin := sh.holeMin
    openConfirm := sh.openConfirm
    closeConfirm := sh.closeConfirm
    edgeNominal := sh.edgeNominal
    trackPersist := sh.trackPersist
    paperLimit := sh.paperLimit }

/-- The start values of a side record (R68). -/
def startSide (exprBase : Nat) : Side := { level := exprBase * 16, target := exprBase * 16 }

/-- Both side records and the soft input take their start values (R68). -/
def startSides (s : State) : State :=
  setExprRest false s.expr.copies s.expr.sample (setSides (startSide s.expr.base) (startSide s.expr.base) s)

/-- The Expression Unit's copies (R67, R80). -/
def exprCopies (sh : Shadow) : ExprCopies :=
  { exprBase := sh.exprBase, splitKey := sh.splitKey, curve := Bank.tabulate 32 sh.curveRow }

/-- The Coil Heat Model's copies (R124). -/
def setHeatCopies (s : State) : State :=
  { s with
    heat :=
      { gain := s.shadow.heatGain
        cool := s.shadow.coolRate
        warm := s.shadow.warmLimit
        hot := s.shadow.hotLimit
        sustain := s.shadow.sustainDepth
        next := s.heat.next } }

/-- The Report Writer becomes active (R178), with the RPT_READ and NOTICE_ENABLE of the load in force (R181, R182). -/
def activateReports (s : State) : State :=
  setReport
    { s.report with
      wr := s.shadow.rptRead
      lost := false
      classes := Bank.replicate 256 none
      copies := some { base := s.shadow.rptBase, size := s.shadow.rptSize }
      active := true
      readIndex := s.shadow.rptRead
      enables := s.shadow.notice } s

/-- The success of validation (R174), in the order of its list. -/
def loadSucceeds (s : State) : State :=
  let s1 := setLoadFault 0 (setLoaded true s)
  let s2 := ringResetTo s1.shadow.ringBase s1.shadow.ringSlots s1
  let s3 := setShift 0 (updTrack (copyTrack s2.shadow) s2)
  let s4 := startSides (setExprRest s3.expr.soft (some (exprCopies s3.shadow)) s3.expr.sample s3)
  initPedals (activateReports (clearCues (alignKeys (setHeatCopies s4))))

/-- A setup-load read completes with a word (R172): it enters the shadow and is checked; after the last word the conditions
of R173 decide. -/
def loadWord (off : Nat) (w : Word) (s : State) : State :=
  let s1 := setReadCount (s.shadow.readCount + 1) (putField off w s)
  match loadWordFault s1.shadow.word off with
  | some fault => loadFails fault s1
  | none =>
    if s1.shadow.readCount < loadOrder.length then s1
    else
      match loadConditionFault s1.pageBase s1.shadow with
      | some fault => loadFails fault s1
      | none => loadSucceeds s1

end Sys2Proof.Machine
end

