-- ==== Sys2Proof/Machine/CommandOps.lean ====
section
/-! DEFINITION. The command intake: which commands are accepted in which state, what each accepted command does, and the result (R64, R168, R170). -/

namespace Sys2Proof.Machine

/-- The commands of codes 1 to 9 (section 12.3). -/
inductive Command where
  | load
  | unload
  | start
  | hold
  | resume
  | step
  | stop
  | silence
  | cueClear
deriving DecidableEq, Repr

def commandOf (code : Nat) : Option Command :=
  if code = 1 then some .load
  else if code = 2 then some .unload
  else if code = 3 then some .start
  else if code = 4 then some .hold
  else if code = 5 then some .resume
  else if code = 6 then some .step
  else if code = 7 then some .stop
  else if code = 8 then some .silence
  else if code = 9 then some .cueClear
  else none

/-- The table of R64: what a known command is answered in a playback state. -/
def replyByState (st : Playback) (stepInProgress : Bool) (c : Command) : Reply :=
  match c with
  | .cueClear => .accepted
  | .load =>
    match st with
    | .idle => .accepted
    | .loading => .refusedBusy
    | .ready => .accepted
    | .playing => .refusedState
    | .starved => .refusedState
    | .held => .refusedState
    | .ending => .refusedState
    | .stopping => .refusedBusy
  | .unload =>
    match st with
    | .idle => .refusedState
    | .loading => .refusedBusy
    | .ready => .accepted
    | .playing => .refusedState
    | .starved => .refusedState
    | .held => .refusedState
    | .ending => .refusedState
    | .stopping => .refusedBusy
  | .start =>
    match st with
    | .idle => .refusedState
    | .loading => .refusedBusy
    | .ready => .accepted
    | .playing => .refusedState
    | .starved => .refusedState
    | .held => .refusedState
    | .ending => .refusedState
    | .stopping => .refusedBusy
  | .hold =>
    match st with
    | .idle => .refusedState
    | .loading => .refusedBusy
    | .ready => .refusedState
    | .playing => .accepted
    | .starved => .accepted
    | .held => .refusedState
    | .ending => .refusedState
    | .stopping => .refusedBusy
  | .resume =>
    match st with
    | .idle => .refusedState
    | .loading => .refusedBusy
    | .ready => .refusedState
    | .playing => .refusedState
    | .starved => .refusedState
    | .held => if stepInProgress then .refusedBusy else .accepted
    | .ending => .refusedState
    | .stopping => .refusedBusy
  | .step =>
    match st with
    | .idle => .refusedState
    | .loading => .refusedBusy
    | .ready => .refusedState
    | .playing => .refusedState
    | .starved => .refusedState
    | .held => if stepInProgress then .refusedBusy else .accepted
    | .ending => .refusedState
    | .stopping => .refusedBusy
  | .stop =>
    match st with
    | .idle => .refusedState
    | .loading => .refusedBusy
    | .ready => .refusedState
    | .playing => .accepted
    | .starved => .accepted
    | .held => .accepted
    | .ending => .accepted
    | .stopping => .refusedBusy
  | .silence =>
    match st with
    | .idle => .refusedState
    | .loading => .refusedBusy
    | .ready => .accepted
    | .playing => .accepted
    | .starved => .accepted
    | .held => .accepted
    | .ending => .accepted
    | .stopping => .accepted

/-- A line is available for STEP (R55). -/
def State.lineAvailable (s : State) : Bool := s.lineHeld || s.ring.headReady

/-- The outcome of a known command (R64, R55, R158). -/
def replyOf (c : Command) (s : State) : Reply :=
  let r := replyByState s.clock.state s.clock.stepInProgress c
  match c with
  | .step => if r = .accepted ∧ s.lineAvailable = false then .refusedEmpty else r
  | .cueClear => if inRange 1 s.shadow.arg.toNat 3 then .accepted else .refusedArg
  | .load => r
  | .unload => r
  | .start => r
  | .hold => r
  | .resume => r
  | .stop => r
  | .silence => r

/-! ## What each accepted command does -/

/-- A report word's access in progress completes with its record abandoned (R178). -/
def Access.dropReport : Access → Access
  | .lineFetch slot addr live => .lineFetch slot addr live
  | .setupLoad off live => .setupLoad off live
  | .argRead => .argRead
  | .reportWord addr w _ => .reportWord addr w false
  | .statusWord off w => .statusWord off w

/-- LOAD taken in IDLE or READY (R171, R178). -/
def doLoad (s : State) : State :=
  let s1 := ringReset (setReadCount 0 (setLoaded false (setPlay .loading .noCause s)))
  setOwner (s1.arb.owner.map Access.dropReport)
    (setReport { s1.report with active := false, queue := [], current := none } s1)

/-- UNLOAD taken in READY, in the order of R63: the report, the keys, the state and the ring, the shadow. -/
def doUnload (s : State) : State :=
  goDormant (ringReset (setPlay .idle .noCause (keysToIdle (raise .unloaded 0 0 s))))

/-- START taken in READY (R62). -/
def doStart (s : State) : State :=
  let s1 := setShift 0 (updTrack startTrack (setExpected s.shadow.arg s))
  let s2 := updClock (fun k => { k with exprCount := 0, exprOwed := 0 }) (startSides s1)
  takeDue s2.now (raise .started s2.headWord s2.shadow.arg (setPlay .playing .noCause s2))

/-- HOLD taken in PLAYING or STARVED (R52). -/
def doHold (s : State) : State := requestHold .command s

/-- RESUME taken in HELD (R54). -/
def doResume (s : State) : State :=
  let s1 := raise .resumed 0 (causeWord s.clock.cause) (setPlay .playing .noCause s)
  let s2 := updTrack (fun t => { t with candidate := none, candidateCount := 0, noEdge := 0 }) s1
  if s.lineHeld then decodeHeld Config.lastStage s2.now (setNextDue s2.now s2) else takeDue s2.now s2

/-- STEP taken in HELD with a line available (R55). -/
def doStep (s : State) : State :=
  let s1 := updClock (fun k => { k with stepInProgress := true }) s
  if s.lineHeld then decodeHeld 0 s1.now s1 else startFetch false s1.now s1

/-- STOP (R59). -/
def doStop (s : State) : State := enterStopping .command s

/-- SILENCE (R61). -/
def doSilence (s : State) : State := enterSilence s

/-- CUE_CLEAR (R158). -/
def doCueClear (s : State) : State := clearByMask s.shadow.arg.toNat s

/-- An accepted command acts at once (R168). -/
def actOn (c : Command) (s : State) : State :=
  match c with
  | .load => doLoad s
  | .unload => doUnload s
  | .start => doStart s
  | .hold => doHold s
  | .resume => doResume s
  | .step => doStep s
  | .stop => doStop s
  | .silence => doSilence s
  | .cueClear => doCueClear s

/-- A command is taken (R168): the count rises, the command is checked, an accepted one acts, the result is placed. -/
def takeCommand (code : Nat) (s : State) : State :=
  let s1 := bumpCount s
  match commandOf code with
  | none => placeResult code .refusedUnknown s1
  | some c =>
    if replyOf c s1 = .accepted then placeResult code .accepted (actOn c s1) else placeResult code (replyOf c s1) s1

end Sys2Proof.Machine
end

