-- ==== Sys2Proof/Machine/WindowOps.lean ====
section
/-! DEFINITION. Window Monitor and Memory Port Arbiter: how a processor-port cycle is taken, withheld or made to wait, and how the port is granted (R162 to R166, R169, R175). -/

namespace Sys2Proof.Machine

/-! ## Setup writes (R163 to R165, R175) -/

/-- The word as a write would leave it, over the shadow's word (R165). -/
def State.mergedField (s : State) (off : Nat) (c : ProcCycle) : Word := laneMerge c.lanes (s.shadow.word off) c.data

/-- The load in progress has read the word (R167, R175). -/
def State.alreadyRead (s : State) (off : Nat) : Bool := (loadOrder.take s.shadow.readCount).contains off

/-- The block that a write of a cue block word would leave satisfies R159. -/
def State.blockOk (s : State) (off : Nat) (w : Word) : Bool :=
  cueBlockOk (fun n => ((s.shadow.put off w).word (off - off % 0x20 + 2 * n)).toNat)

/-- The range check of a LIVE write while the shadow is loaded (R165): RPT_READ against RPT_SIZE (R181), a cue block word
with its whole block (R159), any other word by its own fields. -/
def State.liveOk (s : State) (off : Nat) (w : Word) : Bool :=
  if off = offRptRead then decide (w.toNat < s.shadow.rptSize)
  else if inRange 0x100 off 0x13E then s.blockOk off w
  else liveWordOk off w

/-- The read index and the enables in force follow a taken RPT_READ or NOTICE_ENABLE write (R181, R182). -/
def takeNotice (off : Nat) (w : Word) (s : State) : State :=
  if off = offRptRead then setReport { s.report with readIndex := w.toNat } s
  else if off = offNotice then setReport { s.report with enables := w.toNat } s
  else s

/-- A LIVE write that is taken: it passes to memory with its lanes, and the shadow's word takes its value (R165, R175). -/
def takeField (off : Nat) (w : Word) (c : ProcCycle) (s : State) : State :=
  takeNotice off w (putField off w (passWrite c s))

/-- What the blocks that own the field do when a LIVE write is taken: a key's SOURCE and DIRECT_DUTY (R114 to R116), the
duty of held keys (R102), the cue flags (R158). -/
def liveEffect (off : Nat) (w : Word) (s : State) : State :=
  if off = offHoldDuty then refreshHolds s
  else if inRange 0x100 off 0x11E then clearByBlock .a s
  else if inRange 0x120 off 0x13E then clearByBlock .b s
  else if off = offSequential then clearCues s
  else if inRange 0x200 off 0x2AE then grantStrikes (applyKeyWord (keyAt off) w s)
  else s

/-- A write withheld as out of range (R164). -/
def refuseRange (off : Nat) (s : State) : State := raise .range 0 (toWord off) s

/-- A write of a LIVE field word (R163, R165, R175). -/
def liveWrite (off : Nat) (c : ProcCycle) (s : State) : State :=
  let w := s.mergedField off c
  if s.clock.state = .idle then passWrite c s
  else if s.validating then
    if s.alreadyRead off then
      if liveWordOk off w then takeField off w c s else refuseRange off s
    else passWrite c s
  else if s.liveOk off w then liveEffect off w (takeField off w c s)
  else refuseRange off s

/-- A write of a LOCKED field word or part-written word (R163, R164). -/
def guardedWrite (off : Nat) (c : ProcCycle) (s : State) : State :=
  if s.clock.state = .idle then passWrite c s else raise .withheld 0 (toWord off) s

/-- A write of COMMAND_ARG (R163, R168). -/
def argWrite (c : ProcCycle) (s : State) : State :=
  if s.clock.state = .idle then passWrite c s
  else setArg (laneMerge c.lanes s.shadow.arg c.data) (passWrite c s)

/-- A write of COMMAND that is taken as a command (R168). -/
def commandTaken (c : ProcCycle) (s : State) : State := takeCommand c.code (passWrite c s)

/-- A processor write to the setup page (R163). -/
def setupWrite (off : Nat) (c : ProcCycle) (s : State) : State :=
  match pageWord off with
  | .command => commandTaken c s
  | .commandArg => argWrite c s
  | .locked => guardedWrite off c s
  | .partWritten => guardedWrite off c s
  | .live => liveWrite off c s
  | .ordinary => passWrite c s

/-! ## Ring writes (R4 to R9, R50) -/

/-- A word number joins a written-word set, in rising order. -/
def insertWord (w : Nat) : List Nat → List Nat
  | [] => [w]
  | x :: rest => if x < w then x :: insertWord w rest else if x = w then x :: rest else w :: x :: rest

/-- The written-word set holds all of words 0 to 16 (R6). -/
def Slot.complete (r : Slot) : Bool := (List.range 17).all (fun w => r.written.contains w)

/-- The slot number as a record's subject. -/
def slotWord (i : Fin 128) : Word := toWord i.val

/-- A line is completed (R6); the completion of the head feeds a starved clock (R50). -/
def completeSlot (i : Fin 128) (s : State) : State :=
  let s1 := updSlot i (fun _ => { state := .ready }) s
  if i = s.ring.head ∧ s.clock.state = .starved then feed s1 else s1

/-- A line is torn (R7). -/
def tearSlot (i : Fin 128) (s : State) : State :=
  raise .torn (slotWord i) (toWord (s.ring.slots.get i).written.length) (updSlot i (fun _ => {}) s)

/-- A write that passes, to a FREE or FILLING slot (R4 to R7). -/
def fillSlot (i : Fin 128) (w : Nat) (s : State) : State :=
  if w < 17 then updSlot i (fun r => { r with state := .filling, written := insertWord w r.written }) s
  else if (s.ring.slots.get i).state = .filling ∧ (s.ring.slots.get i).complete = true then completeSlot i s
  else tearSlot i s

/-- A write withheld from a READY or CURRENT slot (R9). -/
def overrun (i : Fin 128) (w : Nat) (s : State) : State :=
  if (s.ring.slots.get i).overrunNoted then s
  else raise .overrun (slotWord i) (toWord w) (updSlot i (fun r => { r with overrunNoted := true }) s)

/-- A processor write to word `w` of a slot while the monitor watches (R4 to R9). -/
def ringWrite (i : Fin 128) (w : Nat) (c : ProcCycle) (s : State) : State :=
  match (s.ring.slots.get i).state with
  | .free => fillSlot i w (passWrite c s)
  | .filling => fillSlot i w (passWrite c s)
  | .ready => overrun i w s
  | .current => overrun i w s

/-! ## Cycles (R162, R164, R166, R169) -/

/-- A processor write by its class (R162). -/
def writeEffect (c : ProcCycle) (s : State) : State :=
  match s.classify c.addr with
  | .setup off => setupWrite off c s
  | .ring i w => ringWrite i w c s
  | .reportRing => passWrite c s
  | .ordinary => passWrite c s

/-- The write is withheld and so needs no memory cycle (R9, R164). -/
def State.withholds (s : State) (c : ProcCycle) : Bool :=
  match s.classify c.addr with
  | .setup off =>
    match pageWord off with
    | .command => false
    | .commandArg => false
    | .ordinary => false
    | .locked => decide (s.clock.state ≠ .idle)
    | .partWritten => decide (s.clock.state ≠ .idle)
    | .live =>
      if s.clock.state = .idle then false
      else if s.validating then s.alreadyRead off && !liveWordOk off (s.mergedField off c)
      else !s.liveOk off (s.mergedField off c)
  | .ring i _ => decide ((s.ring.slots.get i).state = .ready) || decide ((s.ring.slots.get i).state = .current)
  | .reportRing => false
  | .ordinary => false

/-- The cycle is a COMMAND write taken in IDLE, which is held (R169). -/
def State.holdsCommand (s : State) (c : ProcCycle) : Bool :=
  c.isWrite && decide (s.clock.state = .idle) && decide (s.classify c.addr = .setup offCommand)

/-- A cycle's own effect and its BUS test, in the order given (R154, R160). -/
def showAround (c : ProcCycle) (effect : State → State) (s : State) : State :=
  if c.order.cueFirst then effect (showCycle c s) else showCycle c (effect s)

/-- A cycle completes on the processor port, or a COMMAND write in IDLE is held there (R162, R169). What PD carries on the
lane that a one-lane read does not use is the model's choice (DESIGN CHOICE, log 34): 0, as R154 gives it for the Cue Unit's
data word. -/
def completeCycle (c : ProcCycle) (s : State) : State :=
  if s.holdsCommand c then setHeldCommand (some c) s
  else if c.isWrite then showAround c (writeEffect c) s
  else showAround c (setPd (laneData c.lanes (readWord s.mem c.addr))) s

/-- A cycle arrives (R164, R166): a withheld write and a held command need no port; any other cycle waits with PWAIT_N
asserted while a part access owns the port. While a cycle waits or is held the processor can give no other. -/
def arriveCycle (c : ProcCycle) (s : State) : State :=
  if s.arb.waiting.isSome || s.shadow.held.isSome then s
  else if (c.isWrite && s.withholds c) || s.holdsCommand c || s.arb.owner.isNone then completeCycle c s
  else setWaitingCycle (some c) s

/-- The processor cycle that waited is granted before any part request (R166). -/
def serveWaiting (s : State) : State :=
  match s.arb.waiting with
  | none => s
  | some c => completeCycle c (setWaitingCycle none s)

/-- A held COMMAND write goes on once its argument has been read (R169). -/
def releaseCommand (c : ProcCycle) (w : Word) (s : State) : State :=
  showAround c (commandTaken c) (setHeldCommand none (setArg w s))

/-! ## Grants of the memory port (R166, R180, R183) -/

/-- The line fetch's request. -/
def Ring.request (r : Ring) : Option Access :=
  match r.fetch with
  | none => none
  | some f => some (.lineFetch f.slot (r.wordAddr f.slot f.count) true)

/-- The setup load's request, or the argument read of a held command. -/
def State.setupRequest (s : State) : Option Access :=
  if s.shadow.held.isSome then some .argRead
  else if s.validating then
    match loadOrder[s.shadow.readCount]? with
    | none => none
    | some off => some (.setupLoad off true)
  else none

/-- The Report Writer's request: the next word of the record in progress, at the write index (R180). -/
def Report.request (r : Report) : Option Access :=
  match r.current, r.copies with
  | some p, some c => some (.reportWord (c.base + 8 * r.wr + 2 * p.written) (recordWord p.record p.written) true)
  | _, _ => none

/-- The Status Writer's access: the first word of the list leaves it with the value it mirrors, and a RESULT so granted is
no longer pending (R170, R183, log 23). -/
def grantStatus (s : State) : State :=
  match s.updates with
  | [] => s
  | off :: rest =>
    { s with
      arb := { s.arb with owner := some (.statusWord off (s.statusValue off)) }
      updates := rest
      shadow := { s.shadow with result := if off = offResult then none else s.shadow.result } }

/-- With no owner and no processor cycle waiting, the highest-priority part request is granted (R166). -/
def grantPort (s : State) : State :=
  if s.arb.owner.isSome || s.arb.waiting.isSome then s
  else
    match s.ring.request with
    | some a => setOwner (some a) s
    | none =>
      match s.setupRequest with
      | some a => setOwner (some a) s
      | none =>
        match s.report.request with
        | some a => setOwner (some a) s
        | none => grantStatus s

/-! ## The frame of every row -/

/-- A row that is no processor cycle: time goes on to `t`, a pending part request is granted, then the row's effect. While
RST_N is asserted the part does nothing (R122, R125, R162). -/
def partRow (t : Instant) (effect : State → State) (s : State) : Host.Outcome State Fault Refusal :=
  if s.rst then .next (advance t s) else .next (drivePins (effect (grantPort (advance t s))))

/-- A processor cycle while RST_N is asserted passes straight to the memory port (R162); PD on an unused lane by log 34. -/
def straightCycle (c : ProcCycle) (s : State) : State :=
  if c.isWrite then passWrite c s else setPd (laneData c.lanes (readWord s.mem c.addr)) s

/-- A row that is a processor cycle: it arrives before or after the pending part request is granted (R166, R176). -/
def cycleRow (t : Instant) (c : ProcCycle) (s : State) : Host.Outcome State Fault Refusal :=
  if s.rst then .next (straightCycle c (advance t s))
  else if c.order.portFirst then .next (drivePins (arriveCycle c (advance t s)))
  else .next (drivePins (arriveCycle c (grantPort (advance t s))))

end Sys2Proof.Machine
end

