-- ==== Sys2Proof/Machine/Bus.lean ====
section
/-! DEFINITION. The rows of the other processor-port cycles: ring writes, ordinary writes and reads (R4 to R9, R162). -/

namespace Sys2Proof.Machine

/-- R4 to R9. A write of a word of the roll ring window. -/
def execRingWrite (t : Instant) (o : BusOrder) (wa : BitVec 20) (lanes : Lanes) (data : Word)
    (s : State) : Host.Outcome State Fault Refusal :=
  cycleRow t { isWrite := true, wa := wa, lanes := lanes, data := data, order := o } s

/-- R162. Any other write. -/
def execOrdinaryWrite (t : Instant) (o : BusOrder) (wa : BitVec 20) (lanes : Lanes) (data : Word)
    (s : State) : Host.Outcome State Fault Refusal :=
  cycleRow t { isWrite := true, wa := wa, lanes := lanes, data := data, order := o } s

/-- R162. A read of any address. -/
def execProcessorRead (t : Instant) (o : BusOrder) (wa : BitVec 20) (lanes : Lanes)
    (s : State) : Host.Outcome State Fault Refusal :=
  cycleRow t { isWrite := false, wa := wa, lanes := lanes, data := 0, order := o } s

end Sys2Proof.Machine
end

