-- ==== Sys2Proof/Machine/Commands.lean ====
section
/-! DEFINITION. The command rows: a COMMAND write of each code, the writes and the read of COMMAND_ARG, the COMMAND write held in IDLE (chapter 10.5). -/

namespace Sys2Proof.Machine

/-- R171, R168. A COMMAND write of code 1, LOAD; taken in IDLE it is held while its argument is read (R169). -/
def execLoad (t : Instant) (o : BusOrder) (hi : Option Byte) (s : State) : Host.Outcome State Fault Refusal :=
  cycleRow t (s.commandWrite 1 hi o) s

/-- R63, R168. A COMMAND write of code 2, UNLOAD; taken in IDLE it is held while its argument is read (R169). -/
def execUnload (t : Instant) (o : BusOrder) (hi : Option Byte) (s : State) : Host.Outcome State Fault Refusal :=
  cycleRow t (s.commandWrite 2 hi o) s

/-- R62, R168. A COMMAND write of code 3, START; taken in IDLE it is held while its argument is read (R169). -/
def execStart (t : Instant) (o : BusOrder) (hi : Option Byte) (s : State) : Host.Outcome State Fault Refusal :=
  cycleRow t (s.commandWrite 3 hi o) s

/-- R52, R168. A COMMAND write of code 4, HOLD; taken in IDLE it is held while its argument is read (R169). -/
def execHold (t : Instant) (o : BusOrder) (hi : Option Byte) (s : State) : Host.Outcome State Fault Refusal :=
  cycleRow t (s.commandWrite 4 hi o) s

/-- R54, R168. A COMMAND write of code 5, RESUME; taken in IDLE it is held while its argument is read (R169). -/
def execResume (t : Instant) (o : BusOrder) (hi : Option Byte) (s : State) : Host.Outcome State Fault Refusal :=
  cycleRow t (s.commandWrite 5 hi o) s

/-- R55, R168. A COMMAND write of code 6, STEP; taken in IDLE it is held while its argument is read (R169). -/
def execStep (t : Instant) (o : BusOrder) (hi : Option Byte) (s : State) : Host.Outcome State Fault Refusal :=
  cycleRow t (s.commandWrite 6 hi o) s

/-- R59, R168. A COMMAND write of code 7, STOP; taken in IDLE it is held while its argument is read (R169). -/
def execStop (t : Instant) (o : BusOrder) (hi : Option Byte) (s : State) : Host.Outcome State Fault Refusal :=
  cycleRow t (s.commandWrite 7 hi o) s

/-- R61, R168. A COMMAND write of code 8, SILENCE; taken in IDLE it is held while its argument is read (R169). -/
def execSilence (t : Instant) (o : BusOrder) (hi : Option Byte) (s : State) : Host.Outcome State Fault Refusal :=
  cycleRow t (s.commandWrite 8 hi o) s

/-- R158, R168. A COMMAND write of code 9, CUE_CLEAR; taken in IDLE it is held while its argument is read (R169). -/
def execCueClear (t : Instant) (o : BusOrder) (hi : Option Byte) (s : State) : Host.Outcome State Fault Refusal :=
  cycleRow t (s.commandWrite 9 hi o) s

/-- R168. A COMMAND write of any other code. -/
def execUnknownCommand (t : Instant) (o : BusOrder) (lanes : Lanes) (data : Word) (s : State) : Host.Outcome State Fault Refusal :=
  cycleRow t (s.pageWrite offCommand lanes data o) s

/-- R168, R163. A write of COMMAND_ARG. -/
def execCommandArgWrite (t : Instant) (o : BusOrder) (lanes : Lanes) (data : Word) (s : State) : Host.Outcome State Fault Refusal :=
  cycleRow t (s.pageWrite offArg lanes data o) s

/-- R169. A COMMAND write taken in IDLE is held on the processor port, with PWAIT_N asserted, while the argument is read. -/
def execCommandWriteInIdle (t : Instant) (o : BusOrder) (lanes : Lanes) (data : Word) (s : State) : Host.Outcome State Fault Refusal :=
  cycleRow t (s.pageWrite offCommand lanes data o) s

/-- The part's read of COMMAND_ARG completes: the argument is taken, the held write passes, the command is taken (R169). -/
def onCommandArgRead (s : State) : State :=
  match s.arb.owner, s.shadow.held with
  | some .argRead, some c =>
    serveWaiting (releaseCommand c (readWord s.mem (s.pageBase + offArg)) (setOwner none s))
  | _, _ => s

/-- R169. Completion of the part's read of COMMAND_ARG. -/
def execCommandArgRead (t : Instant) (s : State) : Host.Outcome State Fault Refusal := partRow t onCommandArgRead s

end Sys2Proof.Machine
end

