-- ==== Sys2Proof/Machine/Keys.lean ====
section
/-! DEFINITION. The rows of the schedule, the firing queue, the key timers, the heat step and the KD period (chapters 5, 6 and 7). -/

namespace Sys2Proof.Machine

/-- The action timer has run out. -/
def timerOut (r : KeyRec) (now : Instant) : Bool :=
  match r.timer with
  | none => false
  | some e => decide (e ≤ now)

/-- The entries whose due instants have arrived are dispatched in order (R91, R92). -/
def onScheduleDispatch (s : State) : State :=
  if s.dispatches then dispatchLoop s.sched.length s else s

/-- R91. The due instant of the first schedule entry arrives. -/
def execScheduleDispatch (t : Instant) (s : State) : Host.Outcome State Fault Refusal :=
  partRow t onScheduleDispatch s

/-- Key k's waiting strike has reached its expiry instant (R98). -/
def onDropLate (k : Key) (s : State) : State :=
  match waitingOf k s.fire.queue with
  | none => s
  | some w => if w.expiry ≤ s.now then dropWaiting k s else s

/-- R98. The expiry instant of key k's waiting strike arrives. -/
def execDropLate (t : Instant) (k : Key) (s : State) : Host.Outcome State Fault Refusal :=
  partRow t (onDropLate k) s

/-- The action timer of a FIRING key has run out (R106). -/
def onPulseEnd (k : Key) (expiryFirst : Bool) (s : State) : State :=
  if (s.key k).state = .firing ∧ timerOut (s.key k) s.now then pulseEnds k expiryFirst s else s

/-- R106. The WIDTH timer of key k expires. -/
def execPulseEnd (t : Instant) (k : Key) (expiryFirst : Bool) (s : State) : Host.Outcome State Fault Refusal :=
  partRow t (onPulseEnd k expiryFirst) s

/-- The action timer of a HOLDING key has run out (R107). -/
def onMinHoldExpiry (k : Key) (s : State) : State :=
  if (s.key k).state = .holding ∧ timerOut (s.key k) s.now then minHoldOut k s else s

/-- R107. The MIN_HOLD timer of key k expires. -/
def execMinHoldExpiry (t : Instant) (k : Key) (s : State) : Host.Outcome State Fault Refusal :=
  partRow t (onMinHoldExpiry k) s

/-- The action timer of a RELEASING key has run out (R111). -/
def onRecoveryExpiry (k : Key) (s : State) : State :=
  if (s.key k).state = .releasing ∧ timerOut (s.key k) s.now then becomesFree k s else s

/-- R111. The RECOVERY timer of key k expires. -/
def execRecoveryExpiry (t : Instant) (k : Key) (s : State) : Host.Outcome State Fault Refusal :=
  partRow t (onRecoveryExpiry k) s

/-- The 50 ms timer of a REST key has run out (R105). -/
def onKeyResetTimerExpiry (k : Key) (s : State) : State :=
  if (s.key k).state = .rest ∧ timerOut (s.key k) s.now then becomesFree k s else s

/-- R105. The 50 ms timer of key k expires. -/
def execKeyResetTimerExpiry (t : Instant) (k : Key) (s : State) : Host.Outcome State Fault Refusal :=
  partRow t (onKeyResetTimerExpiry k) s

/-- A heat step that has fallen due: the 88 keys in ascending order (R125). -/
def onHeatStep (s : State) : State :=
  if s.heat.next ≤ s.now then
    allKeys.foldl heatKey { s with heat := { s.heat with next := s.heat.next + Config.heatPeriod } }
  else s

/-- R125. One heat step. -/
def execHeatStep (t : Instant) (s : State) : Host.Outcome State Fault Refusal :=
  partRow t onHeatStep s

/-- A KD period that has fallen due: every output takes up its applied duty (R122). -/
def onKdPeriodStart (s : State) : State :=
  if s.kdNext ≤ s.now then
    { s with
      kdNext := s.kdNext + Config.kdPeriod
      keys := Bank.tabulate 88 (fun i => { s.key (Fin.ofNat 88 i) with kd := s.appliedDuty (Fin.ofNat 88 i) }) }
  else s

/-- R122. A 50 us KD period starts. -/
def execKdPeriodStart (t : Instant) (s : State) : Host.Outcome State Fault Refusal :=
  partRow t onKdPeriodStart s

end Sys2Proof.Machine
end

