-- ==== Sys2Proof/Machine/Lines.lean ====
section
/-! DEFINITION. The rows of a line: dues, fetch words, decode stages, boundary, starvation, expression steps (chapters 1 to 4). -/

namespace Sys2Proof.Machine

/-- The next due arrives in PLAYING: it is taken, or becomes the waiting due while a line is in progress (R44, R45). -/
def onLineDue (s : State) : State :=
  match s.clock.nextDue with
  | none => s
  | some d =>
    if s.clock.state = .playing ∧ d ≤ s.now then
      if s.clock.lineInProgress then updClock (fun k => { k with waitingDue := some d, nextDue := none }) s
      else takeDue d s
    else s

/-- R44. The next due arrives in PLAYING. -/
def execLineDue (t : Instant) (s : State) : Host.Outcome State Fault Refusal :=
  partRow t onLineDue s

/-- One word read of the line fetch completes (R14); a word of an abandoned fetch is dropped (R20). -/
def onLineFetchWord (s : State) : State :=
  match s.arb.owner with
  | some (.lineFetch _ addr live) =>
    serveWaiting (if live then fetchWord (readWord s.mem addr) (setOwner none s) else setOwner none s)
  | _ => s

/-- R14. Completion of one word read of the line fetch. -/
def execLineFetchWord (t : Instant) (s : State) : Host.Outcome State Fault Refusal :=
  partRow t onLineFetchWord s

/-- The stage that is up completes, or goes on up to a key (R23, R38, R82). -/
def onDecodeStage (upTo : Option Key) (s : State) : State :=
  match s.track.decode with
  | none => s
  | some d => if d.stage ≤ 8 then decodeOn d upTo s else s

/-- R23. Completion of one stage of the decode, or of a part of stage 5 or 6. -/
def execDecodeStage (p : StagePart) (s : State) : Host.Outcome State Fault Refusal :=
  partRow p.t (onDecodeStage p.upTo) s

/-- With stage 8 finished the decode ends (R23, R47). -/
def onLineBoundary (s : State) : State :=
  match s.track.decode with
  | none => s
  | some d => if d.stage ≤ 8 then s else lineBoundary d s

/-- R47. The end of a decode. -/
def execLineBoundary (t : Instant) (s : State) : Host.Outcome State Fault Refusal :=
  partRow t onLineBoundary s

/-- The starvation timer has run out in STARVED (R51). -/
def onStarvationExpiry (s : State) : State :=
  match s.clock.starveTimer with
  | none => s
  | some e => if s.clock.state = .starved ∧ e ≤ s.now then enterStopping .starvation s else s

/-- R51. The starvation timer runs out. -/
def execStarvationExpiry (t : Instant) (s : State) : Host.Outcome State Fault Refusal :=
  partRow t onStarvationExpiry s

/-- 10 ms of PLAYING time have been counted: the levels move, the remainder is carried (R46, R71). A line that RESUME found
held CURRENT, or that was fed from STARVED, finds the frozen level (R79): a step whose instant comes before that decode is
made, or before the last drive level of the fed line is asked, is taken after it (log 35). -/
def onExpressionStep (s : State) : State :=
  if s.clock.state = .playing ∧ Config.expressionPeriod ≤ s.clock.exprCount ∧ s.levelFrozen = false then
    updClock (fun k => { k with exprCount := k.exprCount - Config.expressionPeriod }) (expressionMove s)
  else s

/-- R71, R46. One expression step. -/
def execExpressionStep (t : Instant) (s : State) : Host.Outcome State Fault Refusal :=
  partRow t onExpressionStep s

end Sys2Proof.Machine
end

