-- ==== Sys2Proof/Machine/PedalLink.lean ====
section
/-! DEFINITION. The rows of the pedal link and of the travel timers (chapter 8). -/

namespace Sys2Proof.Machine

/-- The third byte of the MOVE frame has been sent, and the frame was not aborted (R139). -/
def onMoveFrameSent (s : State) : State :=
  match s.pedals.link with
  | .sending f start none =>
    if start + Config.frameTime ≤ s.now then
      setLink (.awaiting f (s.now + Config.unit * s.pedals.replyTimeout)) s
    else s
  | .sending _ _ (some _) => s
  | .idle => s
  | .awaiting _ _ => s

/-- R139. The third byte of a MOVE frame has been sent. -/
def execMoveFrameSent (t : Instant) (s : State) : Host.Outcome State Fault Refusal :=
  partRow t onMoveFrameSent s

/-- The byte in progress at the pedal initialisation has ended (R147). -/
def onLinkByteEndAbort (s : State) : State :=
  match s.pedals.link with
  | .sending _ _ (some e) => if e ≤ s.now then linkSend (setLink .idle s) else s
  | .sending _ _ none => s
  | .idle => s
  | .awaiting _ _ => s

/-- R147. The byte in progress at the pedal initialisation ends. -/
def execLinkByteEndAbort (t : Instant) (s : State) : Host.Outcome State Fault Refusal :=
  partRow t onLinkByteEndAbort s

/-- An ACK frame is completed (R141, R140). -/
def onAck (p : Pedal) (depth : BitVec 4) (s : State) : State :=
  receiveFrame (frameBytes .ack p depth.toNat) s

/-- R141. An ACK frame is completed on PLRX. -/
def execAck (t : Instant) (p : Pedal) (depth : BitVec 4) (s : State) : Host.Outcome State Fault Refusal :=
  partRow t (onAck p depth) s

/-- A NAK frame is completed (R142, R140). -/
def onNak (p : Pedal) (depth : BitVec 4) (s : State) : State :=
  receiveFrame (frameBytes .nak p depth.toNat) s

/-- R142. A NAK frame is completed on PLRX. -/
def execNak (t : Instant) (p : Pedal) (depth : BitVec 4) (s : State) : Host.Outcome State Fault Refusal :=
  partRow t (onNak p depth) s

/-- The reply timer has run out in AWAITING (R142). -/
def onReplyTimeoutExpiry (s : State) : State :=
  match s.pedals.link with
  | .awaiting f expiry => if expiry ≤ s.now then retransfer f s else s
  | .sending _ _ _ => s
  | .idle => s

/-- R142. The reply timer expires. -/
def execReplyTimeoutExpiry (t : Instant) (s : State) : Host.Outcome State Fault Refusal :=
  partRow t onReplyTimeoutExpiry s

/-- An ARRIVED frame is completed (R144, R145). -/
def onArrived (p : Pedal) (depth : BitVec 4) (s : State) : State :=
  receiveFrame (frameBytes .arrived p depth.toNat) s

/-- R144. An ARRIVED frame is completed on PLRX. -/
def execArrived (t : Instant) (p : Pedal) (depth : BitVec 4) (s : State) : Host.Outcome State Fault Refusal :=
  partRow t (onArrived p depth) s

/-- A frame of these bytes is completed (R137). -/
def onInvalidFrame (b1 b2 b3 : Byte) (s : State) : State :=
  receiveFrame [b1, b2, b3] s

/-- R137. A frame that fails a test is completed on PLRX. -/
def execInvalidFrame (t : Instant) (b1 b2 b3 : Byte) (s : State) : Host.Outcome State Fault Refusal :=
  partRow t (onInvalidFrame b1 b2 b3) s

/-- A byte with a bad stop bit is dropped with the part of a frame (R137). -/
def onPlrxFramingError (s : State) : State :=
  setRx [] s.now s

/-- R137. A byte with a bad stop bit. -/
def execPlrxFramingError (t : Instant) (s : State) : Host.Outcome State Fault Refusal :=
  partRow t onPlrxFramingError s

/-- A gap of more than 200 us since the last byte drops the part of a frame (R137). -/
def onPlrxGapTimeout (s : State) : State :=
  if s.pedals.rxEnd + Config.gapLimit < s.now then setRx [] s.pedals.rxEnd s else s

/-- R137. A gap of more than 200 us. -/
def execPlrxGapTimeout (t : Instant) (s : State) : Host.Outcome State Fault Refusal :=
  partRow t onPlrxGapTimeout s

/-- A well-framed byte ends now (R137). -/
def onPlrxByteReceived (b : Byte) (s : State) : State :=
  receiveByte b s

/-- R137. A well-framed byte is received on PLRX. -/
def execPlrxByteReceived (t : Instant) (b : Byte) (s : State) : Host.Outcome State Fault Refusal :=
  partRow t (onPlrxByteReceived b) s

/-- Pedal p's travel timer has run out (R144). -/
def onTravelExpiry (p : Pedal) (s : State) : State :=
  match (s.pedals.pedal p).travel with
  | none => s
  | some e => if e ≤ s.now then faultPedal p faultTravel s else s

/-- R144. The travel timer of pedal p expires. -/
def execTravelExpiry (t : Instant) (p : Pedal) (s : State) : Host.Outcome State Fault Refusal :=
  partRow t (onTravelExpiry p) s

end Sys2Proof.Machine
end

