-- ==== Sys2Proof/Machine/Pins.lean ====
section
/-! DEFINITION. The rows of the pins INH_N and RST_N (R121, R161, R162, and the pin-reset values of every chapter). -/

namespace Sys2Proof.Machine

/-- A change of INH_N is taken (R121): the flag follows it, and INHIBIT is raised outside IDLE. -/
def onInhNChange (asserted : Bool) (s : State) : State :=
  if s.inh = asserted then s
  else if s.clock.state = .idle then setInhibit asserted s
  else raise .inhibit 0 (if asserted then 1 else 0) (setInhibit asserted s)

/-- R121. INH_N becomes asserted, or is released. -/
def execInhNChange (t : Instant) (asserted : Bool) (s : State) : Host.Outcome State Fault Refusal :=
  partRow t (onInhNChange asserted) s

/-- The processor cycle that waits or is held on the port passes straight to memory (R162, log 15). -/
def passHeldCycles (s : State) : State :=
  let s1 := match s.arb.waiting with
    | none => s
    | some c => straightCycle c s
  match s1.shadow.held with
  | none => s1
  | some c => straightCycle c s1

/-- RST_N is asserted (R3, R40, R101, R162 and the pin-reset values of every chapter). -/
def onRstNAssert (s : State) : State := (passHeldCycles s).inReset

/-- R3, R162. RST_N is asserted; asserted already, only time goes on. -/
def execRstNAssert (t : Instant) (s : State) : Host.Outcome State Fault Refusal :=
  if s.rst then .next (advance t s) else .next (onRstNAssert (advance t s))

/-- R161, R183. RST_N is released, with the straps and the level of INH_N sampled there; released already, only time goes
on. -/
def execRstNRelease (t : Instant) (straps : BitVec 4) (inhAsserted : Bool) (s : State) :
    Host.Outcome State Fault Refusal :=
  if s.rst then .next ((advance t s).released straps inhAsserted) else .next (advance t s)

end Sys2Proof.Machine
end

