-- ==== Sys2Proof/Machine/Playback.lean ====
section
/-! DEFINITION. The rows that complete ENDING, STOPPING and LOADING, and the reads of a load (chapters 3 and 10). -/

namespace Sys2Proof.Machine

/-- The drain of ENDING (R58): schedule and queue empty, every key REST or LOCKED. -/
def onEndingDrain (s : State) : State :=
  if s.clock.state = .ending ∧ s.clock.drained = false ∧ s.sched = [] ∧ s.fire.queue = [] ∧ s.keysQuiet = true then
    updClock (fun k => { k with drained := true }) (pedalsToZero s)
  else s

/-- R58. The drain of ENDING. -/
def execEndingDrain (t : Instant) (s : State) : Host.Outcome State Fault Refusal :=
  partRow t onEndingDrain s

/-- The completion of ENDING (R58): drained, every pedal settled, every key REST or LOCKED. -/
def onEndingSettled (s : State) : State :=
  if s.clock.state = .ending ∧ s.clock.drained = true ∧ s.pedals.allSettled = true ∧ s.keysQuiet = true then
    enterReady .ending s
  else s

/-- R58. The completion of ENDING. -/
def execEndingSettled (t : Instant) (s : State) : Host.Outcome State Fault Refusal :=
  partRow t onEndingSettled s

/-- The completion of STOPPING (R60): every key REST or LOCKED, every pedal settled, no decode running on. -/
def onStoppingComplete (s : State) : State :=
  if s.clock.state = .stopping ∧ s.keysQuiet = true ∧ s.pedals.allSettled = true ∧ s.track.decode = none then
    enterReady s.clock.cause s
  else s

/-- R60. The completion of STOPPING. -/
def execStoppingComplete (t : Instant) (s : State) : Host.Outcome State Fault Refusal :=
  partRow t onStoppingComplete s

/-- One read of the load completes: the word enters the shadow and is checked (R172). -/
def onSetupLoadWord (s : State) : State :=
  match s.arb.owner with
  | some (.setupLoad off live) =>
    serveWaiting
      (if live then loadWord off (readWord s.mem (s.pageBase + off)) (setOwner none s) else setOwner none s)
  | _ => s

/-- R172. Completion of one setup-load read. -/
def execSetupLoadWord (t : Instant) (s : State) : Host.Outcome State Fault Refusal :=
  partRow t onSetupLoadWord s

/-- After validation, with every pedal settled, READY is entered (R174). -/
def onLoaded (s : State) : State :=
  if s.clock.state = .loading ∧ s.shadow.loaded = true ∧ s.pedals.allSettled = true then
    raise .loaded 0 (toWord (allPedals.filter (fun p => decide ((s.pedals.pedal p).motion = .fault))).length)
      (setPlay .ready .noCause s)
  else s

/-- R174. The end of LOADING. -/
def execLoaded (t : Instant) (s : State) : Host.Outcome State Fault Refusal :=
  partRow t onLoaded s

end Sys2Proof.Machine
end

