-- ==== Sys2Proof/Machine/Reports.lean ====
section
/-! DEFINITION. The rows of the Report Writer and the Status Writer (chapter 11). -/

namespace Sys2Proof.Machine

/-- A word of the record in progress has been written (R180): the count rises, or the record is committed. -/
def recordWordDone (s : State) : State :=
  match s.report.current with
  | none => s
  | some p =>
    if p.written < 3 then setReport { s.report with current := some { p with written := p.written + 1 } } s
    else setReport (s.report.commit p.record) s

/-- One word write of a record completes; after word 3 the record is committed (R180). A word whose record was abandoned is written and counts for nothing (R178). -/
def onReportWordWrite (s : State) : State :=
  match s.arb.owner with
  | some (.reportWord addr w live) =>
    serveWaiting
      (if live then recordWordDone (partWrite addr w (setOwner none s)) else partWrite addr w (setOwner none s))
  | _ => s

/-- R180. Completion of one word write of a report record. -/
def execReportWordWrite (t : Instant) (s : State) : Host.Outcome State Fault Refusal :=
  partRow t onReportWordWrite s

/-- The Status Writer's access completes with the value taken at its grant (R183, R170). -/
def onStatusWordWrite (s : State) : State :=
  match s.arb.owner with
  | some (.statusWord off w) => serveWaiting (partWrite (s.pageBase + off) w (setOwner none s))
  | _ => s

/-- R183. Completion of one write of the Status Writer. -/
def execStatusWordWrite (t : Instant) (s : State) : Host.Outcome State Fault Refusal :=
  partRow t onStatusWordWrite s

end Sys2Proof.Machine
end

