-- ==== Sys2Proof/Machine/SetupWrites.lean ====
section
/-! DEFINITION. The setup-page rows other than COMMAND and COMMAND_ARG: each is one processor write to a word of the page (chapter 10.2). -/

namespace Sys2Proof.Machine

/-- R181. A write of RPT_READ. -/
def execRptReadWrite (t : Instant) (o : BusOrder) (lanes : Lanes) (data : Word)
    (s : State) : Host.Outcome State Fault Refusal :=
  cycleRow t (s.pageWrite offRptRead lanes data o) s

/-- R159. A write of word `w` of a cue block. -/
def execCueBlockWrite (t : Instant) (o : BusOrder) (ch : Channel) (w : Fin 16) (lanes : Lanes) (data : Word)
    (s : State) : Host.Outcome State Fault Refusal :=
  cycleRow t (s.pageWrite (offBlock ch + 2 * w.val) lanes data o) s

/-- R158. A write of CUE_SEQUENTIAL. -/
def execCueSequentialWrite (t : Instant) (o : BusOrder) (lanes : Lanes) (data : Word)
    (s : State) : Host.Outcome State Fault Refusal :=
  cycleRow t (s.pageWrite offSequential lanes data o) s

/-- R182. A write of NOTICE_ENABLE. -/
def execNoticeEnableWrite (t : Instant) (o : BusOrder) (lanes : Lanes) (data : Word)
    (s : State) : Host.Outcome State Fault Refusal :=
  cycleRow t (s.pageWrite offNotice lanes data o) s

/-- R114 to R117. A write of key k's word of the key table. -/
def execKeyTableWrite (t : Instant) (o : BusOrder) (k : Key) (lanes : Lanes) (data : Word)
    (s : State) : Host.Outcome State Fault Refusal :=
  cycleRow t (s.pageWrite (offKeyTable k) lanes data o) s

/-- R165, R175. A write of another LIVE field word. -/
def execLiveFieldWrite (t : Instant) (o : BusOrder) (off : BitVec 12) (lanes : Lanes) (data : Word)
    (s : State) : Host.Outcome State Fault Refusal :=
  cycleRow t (s.pageWrite off.toNat lanes data o) s

/-- R163, R164. A write of a LOCKED field word. -/
def execLockedFieldWrite (t : Instant) (o : BusOrder) (off : BitVec 12) (lanes : Lanes) (data : Word)
    (s : State) : Host.Outcome State Fault Refusal :=
  cycleRow t (s.pageWrite off.toNat lanes data o) s

/-- R163, R164. A write of a part-written word. -/
def execPartWrittenWordWrite (t : Instant) (o : BusOrder) (off : BitVec 12) (lanes : Lanes) (data : Word)
    (s : State) : Host.Outcome State Fault Refusal :=
  cycleRow t (s.pageWrite off.toNat lanes data o) s

end Sys2Proof.Machine
end

