-- ==== Sys2Proof/Machine/Dispatch.lean ====
section
/-! DEFINITION. exec: one arm for each command, each one call of its own meaning. -/

namespace Sys2Proof.Machine

/-- The effect of a command on everything but the queue. -/
def exec (i : Instr) (s : State) : Host.Outcome State Fault Refusal :=
  match i with
  | .load t o hi => Sys2Proof.Machine.execLoad t o hi s
  | .unload t o hi => Sys2Proof.Machine.execUnload t o hi s
  | .start t o hi => Sys2Proof.Machine.execStart t o hi s
  | .hold t o hi => Sys2Proof.Machine.execHold t o hi s
  | .resume t o hi => Sys2Proof.Machine.execResume t o hi s
  | .step t o hi => Sys2Proof.Machine.execStep t o hi s
  | .stop t o hi => Sys2Proof.Machine.execStop t o hi s
  | .silence t o hi => Sys2Proof.Machine.execSilence t o hi s
  | .cueClear t o hi => Sys2Proof.Machine.execCueClear t o hi s
  | .unknownCommand t o lanes data => Sys2Proof.Machine.execUnknownCommand t o lanes data s
  | .commandArgWrite t o lanes data => Sys2Proof.Machine.execCommandArgWrite t o lanes data s
  | .commandArgRead t => Sys2Proof.Machine.execCommandArgRead t s
  | .rptReadWrite t o lanes data => Sys2Proof.Machine.execRptReadWrite t o lanes data s
  | .cueBlockWrite t o ch w lanes data => Sys2Proof.Machine.execCueBlockWrite t o ch w lanes data s
  | .cueSequentialWrite t o lanes data => Sys2Proof.Machine.execCueSequentialWrite t o lanes data s
  | .noticeEnableWrite t o lanes data => Sys2Proof.Machine.execNoticeEnableWrite t o lanes data s
  | .keyTableWrite t o k lanes data => Sys2Proof.Machine.execKeyTableWrite t o k lanes data s
  | .liveFieldWrite t o off lanes data => Sys2Proof.Machine.execLiveFieldWrite t o off lanes data s
  | .lockedFieldWrite t o off lanes data => Sys2Proof.Machine.execLockedFieldWrite t o off lanes data s
  | .partWrittenWordWrite t o off lanes data => Sys2Proof.Machine.execPartWrittenWordWrite t o off lanes data s
  | .ringWrite t o wa lanes data => Sys2Proof.Machine.execRingWrite t o wa lanes data s
  | .ordinaryWrite t o wa lanes data => Sys2Proof.Machine.execOrdinaryWrite t o wa lanes data s
  | .processorRead t o wa lanes => Sys2Proof.Machine.execProcessorRead t o wa lanes s
  | .lineDue t => Sys2Proof.Machine.execLineDue t s
  | .lineFetchWord t => Sys2Proof.Machine.execLineFetchWord t s
  | .decodeStage p => Sys2Proof.Machine.execDecodeStage p s
  | .lineBoundary t => Sys2Proof.Machine.execLineBoundary t s
  | .starvationExpiry t => Sys2Proof.Machine.execStarvationExpiry t s
  | .expressionStep t => Sys2Proof.Machine.execExpressionStep t s
  | .endingDrain t => Sys2Proof.Machine.execEndingDrain t s
  | .endingSettled t => Sys2Proof.Machine.execEndingSettled t s
  | .stoppingComplete t => Sys2Proof.Machine.execStoppingComplete t s
  | .setupLoadWord t => Sys2Proof.Machine.execSetupLoadWord t s
  | .loaded t => Sys2Proof.Machine.execLoaded t s
  | .scheduleDispatch t => Sys2Proof.Machine.execScheduleDispatch t s
  | .dropLate t k => Sys2Proof.Machine.execDropLate t k s
  | .pulseEnd t k expiryFirst => Sys2Proof.Machine.execPulseEnd t k expiryFirst s
  | .minHoldExpiry t k => Sys2Proof.Machine.execMinHoldExpiry t k s
  | .recoveryExpiry t k => Sys2Proof.Machine.execRecoveryExpiry t k s
  | .keyResetTimerExpiry t k => Sys2Proof.Machine.execKeyResetTimerExpiry t k s
  | .heatStep t => Sys2Proof.Machine.execHeatStep t s
  | .moveFrameSent t => Sys2Proof.Machine.execMoveFrameSent t s
  | .linkByteEndAbort t => Sys2Proof.Machine.execLinkByteEndAbort t s
  | .ack t p depth => Sys2Proof.Machine.execAck t p depth s
  | .nak t p depth => Sys2Proof.Machine.execNak t p depth s
  | .replyTimeoutExpiry t => Sys2Proof.Machine.execReplyTimeoutExpiry t s
  | .arrived t p depth => Sys2Proof.Machine.execArrived t p depth s
  | .invalidFrame t b1 b2 b3 => Sys2Proof.Machine.execInvalidFrame t b1 b2 b3 s
  | .plrxFramingError t => Sys2Proof.Machine.execPlrxFramingError t s
  | .plrxGapTimeout t => Sys2Proof.Machine.execPlrxGapTimeout t s
  | .travelExpiry t p => Sys2Proof.Machine.execTravelExpiry t p s
  | .reportWordWrite t => Sys2Proof.Machine.execReportWordWrite t s
  | .statusWordWrite t => Sys2Proof.Machine.execStatusWordWrite t s
  | .inhNChange t asserted => Sys2Proof.Machine.execInhNChange t asserted s
  | .rstNAssert t => Sys2Proof.Machine.execRstNAssert t s
  | .rstNRelease t straps inhAsserted => Sys2Proof.Machine.execRstNRelease t straps inhAsserted s
  | .kdPeriodStart t => Sys2Proof.Machine.execKdPeriodStart t s
  | .plrxByteReceived t b => Sys2Proof.Machine.execPlrxByteReceived t b s
  | .commandWriteInIdle t o lanes data => Sys2Proof.Machine.execCommandWriteInIdle t o lanes data s

end Sys2Proof.Machine
end

