-- ==== Sys2Proof/Safety.lean ====
section
/-! DEFINITION. The words in which statements about the machine are made: frames, the state of the port, the records outstanding, and the invariants. -/

namespace Sys2Proof.Machine

/-! ## Frames -/

/-- `s` with the bookkeeping of `s'`, which any row may move on: the instant, the PLAYING time counted, the grant of the
memory port, the update list, the pending result, the report records not yet committed, and the outputs NTC_N and PWAIT_N.
A frame says `s' = { s.withBook s' with … }`: everything that is neither bookkeeping nor named is as it was. -/
def State.withBook (s s' : State) : State :=
  { s with
    now := s'.now
    ntc := s'.ntc
    pwait := s'.pwait
    updates := s'.updates
    arb := { s.arb with owner := s'.arb.owner }
    clock := { s.clock with exprCount := s'.clock.exprCount }
    shadow := { s.shadow with result := s'.shadow.result }
    report :=
      { s.report with queue := s'.report.queue, current := s'.report.current, lost := s'.report.lost } }

/-- The instant at which a row with stamp `t` is taken. -/
def State.at (s : State) (t : Instant) : Instant := max s.now t

/-! ## The processor cycle of a row -/

/-- The processor-port cycle that a row gives, with its stamp; none for a row that is no processor cycle. -/
def State.cycleOf (s : State) : Instr → Option (Instant × ProcCycle)
  | .load t o hi => some (t, s.commandWrite 1 hi o)
  | .unload t o hi => some (t, s.commandWrite 2 hi o)
  | .start t o hi => some (t, s.commandWrite 3 hi o)
  | .hold t o hi => some (t, s.commandWrite 4 hi o)
  | .resume t o hi => some (t, s.commandWrite 5 hi o)
  | .step t o hi => some (t, s.commandWrite 6 hi o)
  | .stop t o hi => some (t, s.commandWrite 7 hi o)
  | .silence t o hi => some (t, s.commandWrite 8 hi o)
  | .cueClear t o hi => some (t, s.commandWrite 9 hi o)
  | .unknownCommand t o lanes data => some (t, s.pageWrite offCommand lanes data o)
  | .commandWriteInIdle t o lanes data => some (t, s.pageWrite offCommand lanes data o)
  | .commandArgWrite t o lanes data => some (t, s.pageWrite offArg lanes data o)
  | .rptReadWrite t o lanes data => some (t, s.pageWrite offRptRead lanes data o)
  | .cueBlockWrite t o ch w lanes data => some (t, s.pageWrite (offBlock ch + 2 * w.val) lanes data o)
  | .cueSequentialWrite t o lanes data => some (t, s.pageWrite offSequential lanes data o)
  | .noticeEnableWrite t o lanes data => some (t, s.pageWrite offNotice lanes data o)
  | .keyTableWrite t o k lanes data => some (t, s.pageWrite (offKeyTable k) lanes data o)
  | .liveFieldWrite t o off lanes data => some (t, s.pageWrite off.toNat lanes data o)
  | .lockedFieldWrite t o off lanes data => some (t, s.pageWrite off.toNat lanes data o)
  | .partWrittenWordWrite t o off lanes data => some (t, s.pageWrite off.toNat lanes data o)
  | .ringWrite t o wa lanes data => some (t, { isWrite := true, wa := wa, lanes := lanes, data := data, order := o })
  | .ordinaryWrite t o wa lanes data => some (t, { isWrite := true, wa := wa, lanes := lanes, data := data, order := o })
  | .processorRead t o wa lanes => some (t, { isWrite := false, wa := wa, lanes := lanes, data := 0, order := o })
  | .commandArgRead _ => none
  | .lineDue _ => none
  | .lineFetchWord _ => none
  | .decodeStage _ => none
  | .lineBoundary _ => none
  | .starvationExpiry _ => none
  | .expressionStep _ => none
  | .endingDrain _ => none
  | .endingSettled _ => none
  | .stoppingComplete _ => none
  | .setupLoadWord _ => none
  | .loaded _ => none
  | .scheduleDispatch _ => none
  | .dropLate _ _ => none
  | .pulseEnd _ _ _ => none
  | .minHoldExpiry _ _ => none
  | .recoveryExpiry _ _ => none
  | .keyResetTimerExpiry _ _ => none
  | .heatStep _ => none
  | .moveFrameSent _ => none
  | .linkByteEndAbort _ => none
  | .ack _ _ _ => none
  | .nak _ _ _ => none
  | .replyTimeoutExpiry _ => none
  | .arrived _ _ _ => none
  | .invalidFrame _ _ _ _ => none
  | .plrxFramingError _ => none
  | .plrxGapTimeout _ => none
  | .travelExpiry _ _ => none
  | .reportWordWrite _ => none
  | .statusWordWrite _ => none
  | .inhNChange _ _ => none
  | .rstNAssert _ => none
  | .rstNRelease _ _ _ => none
  | .kdPeriodStart _ => none
  | .plrxByteReceived _ _ => none

/-- The row completes an access of the memory port, asserts RST_N or is a processor cycle: the rows at which memory may
change. -/
def State.reachesMemory (s : State) (c : Instr) : Bool :=
  (s.cycleOf c).isSome ||
    match c with
    | .commandArgRead _ => true
    | .lineFetchWord _ => true
    | .setupLoadWord _ => true
    | .reportWordWrite _ => true
    | .statusWordWrite _ => true
    | .rstNAssert _ => true
    | _ => false

/-- The byte address that a write with these lanes at an even address stores to. -/
def lanesCover (lanes : Lanes) (addr a : Nat) : Bool :=
  match lanes with
  | .low => decide (busAddr a = addr)
  | .high => decide (busAddr a = addr + 1)
  | .both => decide (busAddr a = addr) || decide (busAddr a = addr + 1)

/-- The bytes that a part access stores to (R180, R183); `base` is the first address of the setup page. -/
def Access.stores (base : Nat) (acc : Access) (a : Nat) : Bool :=
  match acc with
  | .lineFetch _ _ _ => false
  | .setupLoad _ _ => false
  | .argRead => false
  | .reportWord addr _ _ => decide (busAddr a = busAddr addr) || decide (busAddr a = busAddr (addr + 1))
  | .statusWord off _ => decide (busAddr a = busAddr (base + off)) || decide (busAddr a = busAddr (base + off + 1))

/-- The part access that owns the port once a pending request has been granted (R166). -/
def State.portOwner (s : State) : Option Access := (grantPort s).arb.owner

/-- The bytes a processor cycle stores to. -/
def ProcCycle.stores (p : ProcCycle) (a : Nat) : Bool := p.isWrite && lanesCover p.lanes p.addr a

/-- Memory once a write cycle has passed with the lanes it used (R8, R165). -/
def ProcCycle.written (p : ProcCycle) (m : Memory) : Memory := writeLanes m p.addr p.lanes p.data

/-! ## The memory port -/

/-- No part access owns the port and no processor cycle waits or is held. -/
def State.portIdle (s : State) : Prop :=
  s.rst = false ∧ s.arb.owner = none ∧ s.arb.waiting = none ∧ s.shadow.held = none

/-- No part request waits for the port. -/
def State.noRequest (s : State) : Prop :=
  s.ring.request = none ∧ s.setupRequest = none ∧ s.report.request = none ∧ s.updates = []

/-- A processor cycle that arrives now is granted at once: the port is idle, and the cycle is taken first or no part request
waits (R166, R176). -/
def State.portOpen (s : State) (o : BusOrder) : Prop := s.portIdle ∧ (o.portFirst = true ∨ s.noRequest)

/-- No cue channel has KIND BUS. -/
def State.noBusCue (s : State) : Prop := s.cueNat .a 0 ≠ 2 ∧ s.cueNat .b 0 ≠ 2

/-- A COMMAND write that arrives now is taken as a command at once, and no BUS cue looks on. -/
def State.commandOpen (s : State) (o : BusOrder) : Prop :=
  s.portOpen o ∧ s.noBusCue ∧ s.clock.state ≠ .idle

/-- The command of this code was counted and its result is pending (R168, R170). -/
def State.answered (s s' : State) (code : Nat) (r : Reply) : Prop :=
  s'.shadow.count = s.shadow.count + 1 ∧
    s'.shadow.result = some { code := code, reply := r, count := s.shadow.count + 1 }

/-! ## Reports -/

/-- The record in progress and the queued records, oldest first. -/
def Report.outstanding (r : Report) : List Record := (r.current.map InProgress.record).toList ++ r.queue

def State.outstanding (s : State) : List Record := s.report.outstanding

/-- A record raised now joins the queue (R179). -/
def State.takesReports (s : State) : Prop :=
  s.report.active = true ∧ s.report.hasRoom = true

/-- The record raised now with this kind, subject and detail (R179). -/
def State.recordOf (s : State) (k : ReportKind) (subject detail : Word) : Record :=
  { kind := k, tag := s.track.lastTag, subject := subject, detail := detail }

/-- One record was raised and joined the outstanding ones. -/
def State.raised (s s' : State) (k : ReportKind) (subject detail : Word) : Prop :=
  s.takesReports → s'.outstanding = s.outstanding ++ [s.recordOf k subject detail]

/-- A record was raised and joined the outstanding ones; others may have been raised after it. -/
def State.raisedFirst (s s' : State) (k : ReportKind) (subject detail : Word) : Prop :=
  s.takesReports → ∃ rest, s'.outstanding = s.outstanding ++ s.recordOf k subject detail :: rest

/-- Exactly these records (kind, subject, detail) were raised, in this order, each taken or dropped as R179 says. -/
def State.raisedExactly (s s' : State) (l : List (ReportKind × Word × Word)) : Prop :=
  s'.report =
    l.foldl (fun r x => r.accept { kind := x.1, tag := s.track.lastTag, subject := x.2.1, detail := x.2.2 }) s.report

/-- No record was raised and none was written on: the Report Writer is as it was. -/
def State.raisedNone (s s' : State) : Prop := s'.report = s.report

/-! ## Keys and pedals -/

/-- The RELEASE entry of the note that key k sounds, taken out of a schedule (R90). -/
def State.noteEnded (s : State) (k : Key) (l : List Entry) : List Entry :=
  match (s.key k).note with
  | none => l
  | some serial => l.eraseP (isReleaseOf k serial)

/-- The record of key k once granted the waiting strike `w` at `now` (R105): release-owed and all else as they were. -/
def State.grantedAt (s : State) (now : Instant) (w : Waiting) : KeyRec :=
  { s.key w.key with
    state := .firing, duty := 16, reduced := false, note := some w.serial
    timer := some (now + 100 * (s.curveRow w.level).width) }

/-- The link is free at `now` with these pedal records: it sends the waiting move that R139 chooses, or is IDLE. -/
def State.linkNext (s' : State) (now : Instant) (chosen : Option (Pedal × Move)) (recs : Pedal → PedalRec) : Prop :=
  match chosen with
  | none => s'.pedals.link = .idle ∧ ∀ q, s'.pedals.pedal q = recs q
  | some (p, m) =>
    s'.pedals.link = .sending { pedal := p, depth := m.depth } now none ∧
      ∀ q, s'.pedals.pedal q = if q = p then { recs q with waiting := none } else recs q

/-! ## STOP, starvation and SILENCE -/

/-- A line in fetch, or held CURRENT and undecoded, which STOP and SILENCE abandon (R20). -/
def State.lineUndecoded (s : State) : Bool := s.clock.lineInProgress && s.track.decode.isNone

/-- Steps 1 to 5 and 7 of STOP (R59), which starvation and SILENCE share, seen from `s` at the instant `now` with the
cause `c`: STOPPING; dues, hold, step and timer cleared; the line abandoned (R20) or its decode run on without effect (R39);
schedule and firing queue empty; every pedal's last scheduled target 0, and every pedal not in FAULT sent to 0. -/
def State.stoppedFrom (s s' : State) (now : Instant) (c : Cause) : Prop :=
  s'.clock =
      { s.clock with
        state := .stopping
        cause := c
        nextDue := none
        waitingDue := none
        pendingHold := none
        stepInProgress := false
        starveTimer := none
        starvedSince := none
        lineInProgress := if s.lineUndecoded then false else s.clock.lineInProgress
        lineDue := if s.lineUndecoded then none else s.clock.lineDue
        exprCount := s'.clock.exprCount
        exprOwed := s'.clock.exprOwed } ∧
    s'.track = { s.track with decode := s.track.decode.map (fun d => { d with muted := true }) } ∧
    s'.ring =
      (if s.lineUndecoded then
        { s.ring with
          slots := s.ring.slots.set s.ring.head {}, head := s.ring.after s.ring.head, fetch := none, buffer := [] }
      else s.ring) ∧
    s'.cue = (if s.lineUndecoded then { s.cue with exempt := false } else s.cue) ∧
    s'.sched = [] ∧ s'.fire.queue = [] ∧
    (∀ p, s'.pedals.pedal p = { s.pedals.pedal p with target := 0, waiting := (s'.pedals.pedal p).waiting } ∧
      ((s.pedals.pedal p).motion = .fault ∨ (s'.pedals.pedal p).waiting = some { depth := 0, due := now } ∨
        s'.pedals.link = .sending { pedal := p, depth := 0 } now none)) ∧
    s'.pedals = { s.pedals with recs := s'.pedals.recs, link := s'.pedals.link } ∧
    (s.pedals.link ≠ .idle → s'.pedals.link = s.pedals.link)

/-- Key k once it is told that its waiting strike is gone, if it had one (R99, R104). -/
def State.keyTold (s : State) (k : Key) : KeyRec :=
  if s.fire.queue.any (fun w => decide (w.key = k)) then (s.key k).strikeGone else s.key k

/-! ## The success of a load's validation -/

/-- Key k brought into line with the SOURCE of its word `w` in the shadow at the instant `now` (R117): locked (R114), unlocked
(R116), driven anew (R102), or with SOURCE TIMER as it was. -/
def State.keyAligned (s : State) (recovery : Nat) (now : Instant) (k : Key) (w : Word) : KeyRec :=
  if keyWordSource w ≠ .timer then
    if (s.key k).state = .locked then
      { s.key k with
        source := keyWordSource w
        directDuty := keyWordDuty w
        duty := if keyWordSource w = .direct then keyWordDuty w else 0 }
    else
      { s.key k with
        state := .locked
        duty := if keyWordSource w = .direct then keyWordDuty w else 0
        source := keyWordSource w
        directDuty := keyWordDuty w
        note := none, releaseOwed := false, nextNote := none, nextOwed := false, reduced := false
        timer := none }
  else if (s.key k).state = .locked then
    { s.key k with
      state := .releasing
      duty := 0
      source := .timer
      directDuty := keyWordDuty w
      note := none, releaseOwed := false, nextNote := none, nextOwed := false, reduced := false
      timer := some (now + 100 * recovery) }
  else { s.key k with source := .timer, directDuty := keyWordDuty w }

/-- What the success of validation gives every block (R174), over the shadow `sh`, seen from `s` at the instant `now`: copies
and start values (R12, R22, R24, R29, R67, R68, R124, R178), the keys in line with their SOURCE (R117), no cue flag (R158), and
the pedal initialisation (R147): the link freed, or its frame aborted at the end of the byte in progress, and each pedal's move
to 0 sent or waiting. -/
def State.validatedFrom (s s' : State) (sh : Shadow) (now : Instant) : Prop :=
  s'.shadow.loaded = true ∧ s'.shadow.loadFault = 0 ∧ s'.shadow.words = sh.words ∧
    s'.ring = { base := sh.ringBase, nslots := sh.ringSlots } ∧
    s'.track = { copyTrack sh s.track with shift := 0 } ∧
    s'.expr = { s.expr with
      copies := some (exprCopies sh), soft := false, bass := startSide sh.exprBase, treble := startSide sh.exprBase } ∧
    s'.heat = { gain := sh.heatGain, cool := sh.coolRate, warm := sh.warmLimit
                hot := sh.hotLimit, sustain := sh.sustainDepth, next := s.heat.next } ∧
    (∀ k, s'.key k = s.keyAligned sh.recovery now k (sh.word (0x200 + 2 * k.val))) ∧
    (s.sched = [] → s'.sched = []) ∧ (s.fire.queue = [] → s'.fire.queue = []) ∧
    s'.cue = { s.cue with flagA := false, flagB := false, bArmed := false } ∧
    s'.report = { s.report with
      wr := sh.rptRead, lost := false, classes := Bank.replicate 256 none
      copies := some { base := sh.rptBase, size := sh.rptSize }, active := true
      readIndex := sh.rptRead, enables := sh.notice } ∧
    s'.pedals.maxRetries = sh.pedalRetries ∧ s'.pedals.replyTimeout = sh.replyTimeout ∧
    s'.pedals.travelLimit = sh.travelLimit ∧ s'.pedals.sost = [] ∧
    s'.pedals.rxBytes = s.pedals.rxBytes ∧ s'.pedals.rxEnd = s.pedals.rxEnd ∧
    (∀ p, s'.pedals.pedal p =
      { depth := 0, motion := .atRest, target := 0, retries := 0, travel := none
        waiting := (s'.pedals.pedal p).waiting }) ∧
    (∀ f start abortAt, s.pedals.link = .sending f start abortAt →
      s'.pedals.link = .sending f start
        (some (abortAt.getD (min (start + 120) (start + 40 * ((now - start) / 40 + 1))))) ∧
      ∀ p, (s'.pedals.pedal p).waiting = some { depth := 0, due := now }) ∧
    ((∀ f start abortAt, s.pedals.link ≠ .sending f start abortAt) →
      s'.pedals.link = .sending { pedal := .damper, depth := 0 } now none ∧
      (s'.pedals.pedal .damper).waiting = none ∧
      ∀ p, p ≠ .damper → (s'.pedals.pedal p).waiting = some { depth := 0, due := now }) ∧
    s'.clock.state = s.clock.state ∧ s'.mem = s.mem

/-! ## Invariants -/

/-- The memory is in its canonical form. -/
def State.memOk (s : State) : Prop := s.mem.wf

/-- NTC_N and PWAIT_N stand as their conditions say (R182, R166, R169). -/
def State.outputsOk (s : State) : Prop :=
  s.ntc = s.noticeDue ∧ s.pwait = (s.arb.waiting.isSome || s.shadow.held.isSome)

/-- The schedule (R85): in order of due instant, at most 128 entries, at most one MOVE for a pedal. -/
def scheduleOk (l : List Entry) : Prop :=
  l.Pairwise (fun x y => x.due ≤ y.due) ∧ l.length ≤ Config.scheduleSize ∧
    ∀ p, (l.filter (isMoveOf p)).length ≤ 1

/-- The sostenuto set is empty whenever pedal 3 is in FAULT or at a depth below 8 (R145). -/
def State.sostenutoOk (s : State) : Prop :=
  (s.pedals.pedal .sostenuto).motion = .fault ∨ (s.pedals.pedal .sostenuto).depth < 8 → s.pedals.sost = []

/-- The number of keys that are FIRING. -/
def State.firingKeys (s : State) : Nat := s.keys.data.countP (fun r => decide (r.state = .firing))

/-- The firing count is the number of keys that are FIRING (R93). -/
def State.firingOk (s : State) : Prop := s.fire.count = s.firingKeys

/-- A key is LOCKED exactly when its applied SOURCE is OFF or DIRECT (R114). -/
def State.locksOk (s : State) : Prop := ∀ k, (s.key k).state = .locked ↔ (s.key k).source ≠ .timer

end Sys2Proof.Machine
end

