-- ==== Sys2Proof/WellFormed.lean ====
section
/-! DEFINITION. Which terms of Instr are commands as their row of the table names them. -/

namespace Sys2Proof

namespace Machine

/-- The three bytes pass the tests of R137 and make an ARRIVED frame, which is always taken and so is no INVALID_FRAME. -/
def isArrivedFrame (b1 b2 b3 : Byte) : Bool :=
  match parseFrame b1 b2 b3 with
  | none => false
  | some (k, _, _) => decide (k = .arrived)

end Machine

/-- A command is well formed when its operands lie in the class that its row names: an unknown code is none of 1 to 9; a
LIVE, LOCKED or part-written row names a word of that class at an even offset; an INVALID_FRAME fails the tests of R137,
or is an ACK or NAK (whose match is a matter of the state). Every other row takes every operand. -/
def Instr.wellFormed : Instr → Bool
  | .load _ _ _ => true
  | .unload _ _ _ => true
  | .start _ _ _ => true
  | .hold _ _ _ => true
  | .resume _ _ _ => true
  | .step _ _ _ => true
  | .stop _ _ _ => true
  | .silence _ _ _ => true
  | .cueClear _ _ _ => true
  | .unknownCommand _ _ lanes data => !Machine.inRange 1 (Machine.commandCode lanes data).toNat 9
  | .commandArgWrite _ _ _ _ => true
  | .commandArgRead _ => true
  | .rptReadWrite _ _ _ _ => true
  | .cueBlockWrite _ _ _ _ _ _ => true
  | .cueSequentialWrite _ _ _ _ => true
  | .noticeEnableWrite _ _ _ _ => true
  | .keyTableWrite _ _ _ _ _ => true
  | .liveFieldWrite _ _ off _ _ => decide (off.toNat % 2 = 0) && Machine.isOtherLive off.toNat
  | .lockedFieldWrite _ _ off _ _ => decide (off.toNat % 2 = 0) && decide (Machine.pageWord off.toNat = .locked)
  | .partWrittenWordWrite _ _ off _ _ => decide (off.toNat % 2 = 0) && decide (Machine.pageWord off.toNat = .partWritten)
  | .ringWrite _ _ _ _ _ => true
  | .ordinaryWrite _ _ _ _ _ => true
  | .processorRead _ _ _ _ => true
  | .lineDue _ => true
  | .lineFetchWord _ => true
  | .decodeStage _ => true
  | .lineBoundary _ => true
  | .starvationExpiry _ => true
  | .expressionStep _ => true
  | .endingDrain _ => true
  | .endingSettled _ => true
  | .stoppingComplete _ => true
  | .setupLoadWord _ => true
  | .loaded _ => true
  | .scheduleDispatch _ => true
  | .dropLate _ _ => true
  | .pulseEnd _ _ _ => true
  | .minHoldExpiry _ _ => true
  | .recoveryExpiry _ _ => true
  | .keyResetTimerExpiry _ _ => true
  | .heatStep _ => true
  | .moveFrameSent _ => true
  | .linkByteEndAbort _ => true
  | .ack _ _ _ => true
  | .nak _ _ _ => true
  | .replyTimeoutExpiry _ => true
  | .arrived _ _ _ => true
  | .invalidFrame _ b1 b2 b3 => !Machine.isArrivedFrame b1 b2 b3
  | .plrxFramingError _ => true
  | .plrxGapTimeout _ => true
  | .travelExpiry _ _ => true
  | .reportWordWrite _ => true
  | .statusWordWrite _ => true
  | .inhNChange _ _ => true
  | .rstNAssert _ => true
  | .rstNRelease _ _ _ => true
  | .kdPeriodStart _ => true
  | .plrxByteReceived _ _ => true
  | .commandWriteInIdle _ _ _ _ => true

end Sys2Proof
end

