-- ==== Sys2Proof/Certificates/Slice0/Obligations.lean ====
section
/-! DEFINITION. The statements for the provers: what the rows of the PG4410 and its blocks do, by the numbered rules of the manual. -/

open Sys2Proof Sys2Proof.Machine

/-! ## The queue, reset, memory -/

/-- One step takes the command at the front of the queue and runs it on the rest; on an empty queue the block idles (log 3:
the queue and its idling are the model's). -/
def Obligations.step_takes_the_front_command_or_idles : Prop :=
  (∀ (c : Instr) (rest : List Instr) (s : State),
    step { s with pending := c :: rest } = exec c { s with pending := rest }) ∧
  (∀ s : State, s.pending = [] → step s = .next s)

/-- What the manual's pin-reset values leave, with the update list that the release of RST_N fills (R183). The instant, the
straps and the level of INH_N at the release are the model's choice (log 8); memory is empty (log 6); the read index and the
enables in force before a load are the model's 0 (log 9). -/
def Obligations.reset_holds_the_pin_reset_values : Prop :=
  let s := State.reset
  s.pending = [] ∧ s.mem = [] ∧ s.rst = false ∧ s.ntc = false ∧ s.pwait = false ∧
    s.arb.owner = none ∧ s.arb.waiting = none ∧
    (∀ i, s.ring.slots.get i = { state := .free, written := [], overrunNoted := false }) ∧ s.ring.head = 0 ∧
    s.ring.fetch = none ∧ s.ring.buffer = [] ∧
    s.track.shift = 0 ∧ s.track.candidate = none ∧ s.track.candidateCount = 0 ∧ s.track.noEdge = 0 ∧
    s.track.pendingHold = none ∧ (∀ i, s.track.rows.get i = { isOpen := false, count := 0 }) ∧
    (∀ k, s.track.serials.get k = 0) ∧ s.track.lastTag = 0 ∧
    s.clock.state = .idle ∧ s.clock.cause = .noCause ∧ s.clock.expected = 0 ∧ s.clock.nextDue = none ∧
    s.clock.waitingDue = none ∧ s.clock.starvedSince = none ∧ s.clock.lineInProgress = false ∧
    s.clock.pendingHold = none ∧ s.clock.stepInProgress = false ∧ s.clock.starveTimer = none ∧
    s.clock.exprCount = 0 ∧ s.clock.exprOwed = 0 ∧ s.clock.drained = false ∧
    s.expr = { bass := {}, treble := {}, soft := false, copies := none, sample := none } ∧
    s.sched = [] ∧ s.fire.queue = [] ∧ s.fire.count = 0 ∧
    (∀ k, s.key k = { state := .rest, timer := some 50000, heat := 0, duty := 0, note := none, nextNote := none }) ∧
    s.heat.gain = 1 ∧ s.heat.cool = 255 ∧ s.heat.warm = 65534 ∧ s.heat.hot = 65535 ∧ s.heat.sustain = 15 ∧
    s.heat.next = 1000 ∧ s.kdNext = 50 ∧
    (∀ p, s.pedals.pedal p =
      { depth := 0, motion := .atRest, target := 0, waiting := none, retries := 0, travel := none }) ∧
    s.pedals.maxRetries = 0 ∧ s.pedals.replyTimeout = 200 ∧ s.pedals.travelLimit = 2000 ∧ s.pedals.link = .idle ∧
    s.pedals.rxBytes = [] ∧ s.pedals.sost = [] ∧
    s.cue.flagA = false ∧ s.cue.flagB = false ∧ s.cue.bArmed = false ∧
    s.shadow.loaded = false ∧ s.shadow.readCount = 0 ∧ s.shadow.arg = 0 ∧ s.shadow.count = 0 ∧
    s.shadow.result = none ∧ s.shadow.loadFault = 0 ∧ s.shadow.held = none ∧
    s.report.wr = 0 ∧ s.report.queue = [] ∧ s.report.current = none ∧ (∀ i, s.report.classes.get i = none) ∧
    s.report.lost = false ∧ s.report.copies = none ∧ s.report.active = false ∧ s.report.readIndex = 0 ∧
    s.report.enables = 0 ∧ (∀ k e, s.kdOnAt k e = false) ∧
    s.updates = evens 0x010 0x07E ++ evens 0x600 0x6AE

/-- Whatever row is taken, memory changes only at the bytes that a processor write of it stores to with the lanes it used (R8,
R162, R165). A row that is no processor cycle changes only the bytes of the part write that then owns the port, and those of a
processor write that waits or is held on the port and passes in the row (R166, R169, R162); a row that completes no access and
does not assert RST_N leaves every byte alone. -/
def Obligations.memory_changes_only_where_a_cycle_stores : Prop :=
  (∀ (c : Instr) (s : State) (t : Instant) (p : ProcCycle), s.cycleOf c = some (t, p) →
    ∃ s', exec c s = .next s' ∧ ∀ a, p.stores a = false → readByte s'.mem a = readByte s.mem a) ∧
  (∀ (c : Instr) (s : State), s.cycleOf c = none →
    ∃ s', exec c s = .next s' ∧ ∀ a,
      (∀ p, s.arb.waiting = some p ∨ s.shadow.held = some p → p.stores a = false) →
      (∀ acc, s.portOwner = some acc → acc.stores s.pageBase a = false) →
      readByte s'.mem a = readByte s.mem a) ∧
  (∀ (c : Instr) (s : State), s.reachesMemory c = false →
    ∃ s', exec c s = .next s' ∧ ∀ a, readByte s'.mem a = readByte s.mem a)

/-- A processor cycle that needs the port and finds a part access there waits, with PWAIT_N asserted. When that access
completes, the waiting cycle is granted before any part request and completes in the same row: a write passes with its lanes
after the part's own word, a read returns memory as it then stands, and PWAIT_N is deasserted (R166; that the grant and the
cycle fall in one row is log 5, and that PD carries 0 on the lane a one-lane read does not use is the model's choice, log 34). -/
def Obligations.cycle_waits_behind_a_part_access : Prop :=
  (∀ (c : Instr) (s : State) (t : Instant) (p : ProcCycle) (acc : Access), s.cycleOf c = some (t, p) →
    s.rst = false → s.arb.owner = some acc → s.arb.waiting = none → s.shadow.held = none →
    (p.isWrite && s.withholds p) = false → s.holdsCommand p = false →
    ∃ s', exec c s = .next s' ∧ s'.pwait = true ∧
      s' = { s.withBook s' with arb := { owner := some acc, waiting := some p } }) ∧
  (∀ (c : Instr) (s : State) (t : Instant) (p : ProcCycle) (acc : Access) (m : Memory), s.rst = false →
    s.arb.owner = some acc → s.arb.waiting = some p → s.shadow.held = none → s.noBusCue →
    (∃ slot a, c = .lineFetchWord t ∧ acc = .lineFetch slot a false ∧ m = s.mem) ∨
      (∃ off, c = .setupLoadWord t ∧ acc = .setupLoad off false ∧ m = s.mem) ∨
      (∃ a w, c = .reportWordWrite t ∧ acc = .reportWord a w false ∧ m = writeWord s.mem a w) ∨
      (∃ off w, c = .statusWordWrite t ∧ acc = .statusWord off w ∧ m = writeWord s.mem (s.pageBase + off) w) →
    (p.isWrite = false →
      ∃ s', exec c s = .next s' ∧ s'.pwait = false ∧
        s' = { s.withBook s' with
          mem := m, pd := laneData p.lanes (readWord m p.addr), arb := { owner := none, waiting := none } }) ∧
    (p.isWrite = true → s.classify p.addr = .ordinary ∨ s.classify p.addr = .reportRing →
      ∃ s', exec c s = .next s' ∧ s'.pwait = false ∧
        s' = { s.withBook s' with
          mem := writeLanes m p.addr p.lanes p.data, arb := { owner := none, waiting := none } }))

/-- An ordinary write, and a write into the report ring, pass to memory unaltered; a read of any address returns the memory's
contents on the lanes the cycle uses (R162, R8). That PD carries 0 on the lane a one-lane read does not use is the model's
choice (log 34, DESIGN CHOICE). -/
def Obligations.ordinary_cycles_pass_unaltered : Prop :=
  ∀ (t : Instant) (o : BusOrder) (wa : BitVec 20) (lanes : Lanes) (s : State), s.portOpen o → s.noBusCue →
    (∀ data : Word, s.classify (2 * wa.toNat) = .ordinary ∨ s.classify (2 * wa.toNat) = .reportRing →
      ∃ s', exec (.ordinaryWrite t o wa lanes data) s = .next s' ∧
        s' = { s.withBook s' with mem := writeLanes s.mem (2 * wa.toNat) lanes data }) ∧
    (∃ s', exec (.processorRead t o wa lanes) s = .next s' ∧
      s' = { s.withBook s' with pd := laneData lanes (readWord s.mem (2 * wa.toNat)) })

/-! ## Setup writes -/

/-- In IDLE a write to any word of the page but COMMAND passes to memory and changes no state of the part (R163). -/
def Obligations.setup_writes_in_idle_pass_unwatched : Prop :=
  ∀ (c : Instr) (s : State) (t : Instant) (p : ProcCycle) (off : Nat), s.cycleOf c = some (t, p) →
    p.isWrite = true → s.portOpen p.order → s.clock.state = .idle → s.classify p.addr = .setup off → off ≠ offCommand →
    ∃ s', exec c s = .next s' ∧ s' = { s.withBook s' with mem := writeLanes s.mem p.addr p.lanes p.data }

/-- Outside IDLE, and even while a part access owns the port: a write to a LOCKED field word or a part-written word is withheld
with WITHHELD (R163, R164); a LIVE write that would leave a field out of range is withheld with RANGE, and shadow, memory and
every block keep the value in force (R164, R165, R159, R181). -/
def Obligations.guarded_and_out_of_range_writes_are_withheld : Prop :=
  ∀ (s : State), s.rst = false → s.arb.waiting = none → s.shadow.held = none → s.noBusCue → s.clock.state ≠ .idle →
    (∀ (t : Instant) (o : BusOrder) (off : BitVec 12) (lanes : Lanes) (data : Word),
      (Instr.lockedFieldWrite t o off lanes data).wellFormed = true →
      ∃ s', exec (.lockedFieldWrite t o off lanes data) s = .next s' ∧
        s.raised s' .withheld 0 (toWord off.toNat) ∧ s' = s.withBook s') ∧
    (∀ (t : Instant) (o : BusOrder) (off : BitVec 12) (lanes : Lanes) (data : Word),
      (Instr.partWrittenWordWrite t o off lanes data).wellFormed = true →
      ∃ s', exec (.partWrittenWordWrite t o off lanes data) s = .next s' ∧
        s.raised s' .withheld 0 (toWord off.toNat) ∧ s' = s.withBook s') ∧
    (∀ (c : Instr) (t : Instant) (p : ProcCycle) (off : Nat), s.cycleOf c = some (t, p) → p.isWrite = true →
      s.classify p.addr = .setup off → pageWord off = .live → s.validating = false →
      s.liveOk off (s.mergedField off p) = false →
      ∃ s', exec c s = .next s' ∧ s.raised s' .range 0 (toWord off) ∧ s' = s.withBook s')

/-- A LIVE write in range is taken: memory takes the lanes written, the shadow takes the word as the write leaves it (R165),
for TEMPO, the rates, the accents, the velocity maps, NOTICE_ENABLE and RPT_READ, with NTC_N following at once (R182); a
HOLD_DUTY write changes the duty of every HOLDING key at that instant, halved under a reduced hold (R102). -/
def Obligations.live_write_in_range_is_taken : Prop :=
  ∀ (t : Instant) (o : BusOrder) (lanes : Lanes) (data : Word) (s : State), s.portOpen o → s.noBusCue →
    s.clock.state ≠ .idle → s.validating = false →
    (∀ off : BitVec 12, (Instr.liveFieldWrite t o off lanes data).wellFormed = true →
      let w := laneMerge lanes (s.shadow.word off.toNat) data
      liveWordOk off.toNat w = true →
      ∃ s', exec (.liveFieldWrite t o off lanes data) s = .next s' ∧
        (∀ k, s'.key k =
          if off.toNat = 0x0E2 ∧ (s.key k).state = .holding then
            { s.key k with duty := if (s.key k).reduced then w.toNat / 2 else w.toNat }
          else s.key k) ∧
        s' = { s.withBook s' with
          mem := writeLanes s.mem (s.pageBase + off.toNat) lanes data
          keys := s'.keys
          shadow := { s.shadow.put off.toNat w with result := s'.shadow.result } }) ∧
    ((laneMerge lanes (s.shadow.word offNotice) data).toNat ≤ 63 →
      ∃ s', exec (.noticeEnableWrite t o lanes data) s = .next s' ∧ s'.ntc = s'.noticeDue ∧
        s' = { s.withBook s' with
          mem := writeLanes s.mem (s.pageBase + offNotice) lanes data
          report := { s.report with enables := (laneMerge lanes (s.shadow.word offNotice) data).toNat }
          shadow := { s.shadow.put offNotice (laneMerge lanes (s.shadow.word offNotice) data) with
            result := s'.shadow.result } }) ∧
    ((laneMerge lanes (s.shadow.word offRptRead) data).toNat < s.shadow.rptSize →
      ∃ s', exec (.rptReadWrite t o lanes data) s = .next s' ∧ s'.ntc = s'.noticeDue ∧
        s' = { s.withBook s' with
          mem := writeLanes s.mem (s.pageBase + offRptRead) lanes data
          report := { s.report with readIndex := (laneMerge lanes (s.shadow.word offRptRead) data).toNat }
          shadow := { s.shadow.put offRptRead (laneMerge lanes (s.shadow.word offRptRead) data) with
            result := s'.shadow.result } })

/-- In LOADING before validation a LIVE write to a word not yet read passes unchecked, and one to a word already read is
checked by its own field and taken or withheld; no key and no cue flag is touched (R175, R117, R159). A RPT_READ or
NOTICE_ENABLE so taken is in force from that instant (R181, R182; log 33). -/
def Obligations.live_write_during_a_load : Prop :=
  ∀ (c : Instr) (s : State) (t : Instant) (p : ProcCycle) (off : Nat), s.cycleOf c = some (t, p) →
    p.isWrite = true → s.classify p.addr = .setup off → pageWord off = .live → s.portOpen p.order →
    s.validating = true →
    (s.alreadyRead off = false →
      ∃ s', exec c s = .next s' ∧ s' = { s.withBook s' with mem := writeLanes s.mem p.addr p.lanes p.data }) ∧
    (s.alreadyRead off = true → liveWordOk off (s.mergedField off p) = true →
      ∃ s', exec c s = .next s' ∧
        s' = { s.withBook s' with
          mem := writeLanes s.mem p.addr p.lanes p.data
          report := { s.report with
            readIndex := if off = offRptRead then (s.mergedField off p).toNat else s.report.readIndex
            enables := if off = offNotice then (s.mergedField off p).toNat else s.report.enables }
          shadow := { s.shadow.put off (s.mergedField off p) with result := s'.shadow.result } }) ∧
    (s.alreadyRead off = true → liveWordOk off (s.mergedField off p) = false → s.report.active = false →
      ∃ s', exec c s = .next s' ∧ s' = s.withBook s')

/-- A key table write taken locks the key (R114), unlocks it (R116), or drives a LOCKED key by its new SOURCE and DIRECT_DUTY
(R115). -/
def Obligations.key_table_write_locks_unlocks_and_drives : Prop :=
  ∀ (t : Instant) (o : BusOrder) (k : Key) (lanes : Lanes) (data : Word) (s : State), s.portOpen o → s.noBusCue →
    s.clock.state ≠ .idle → s.validating = false →
    let w := laneMerge lanes (s.shadow.word (offKeyTable k)) data
    keyWordOk w.toNat = true →
    ∃ s', exec (.keyTableWrite t o k lanes data) s = .next s' ∧
      s' = { s.withBook s' with
        mem := writeLanes s.mem (s.pageBase + offKeyTable k) lanes data
        keys := s'.keys, fire := s'.fire, sched := s'.sched
        shadow := { s.shadow.put (offKeyTable k) w with result := s'.shadow.result } } ∧
      (keyWordSource w ≠ .timer → (s.key k).state ≠ .locked →
        s'.key k =
          { s.key k with
            state := .locked
            duty := if keyWordSource w = .direct then keyWordDuty w else 0
            source := keyWordSource w
            directDuty := keyWordDuty w
            note := none, releaseOwed := false, nextNote := none, nextOwed := false, reduced := false
            timer := none } ∧
        s'.sched = s.sched.filter (fun e => !isEntryOf k e) ∧ (∀ x ∈ s'.fire.queue, x.key ≠ k)) ∧
      (keyWordSource w = .timer → (s.key k).state = .locked →
        s'.key k =
          { s.key k with
            state := .releasing
            duty := 0
            source := .timer
            directDuty := keyWordDuty w
            note := none, releaseOwed := false, nextNote := none, nextOwed := false, reduced := false
            timer := some (s.at t + 100 * s.shadow.recovery) } ∧ s'.sched = s.sched) ∧
      (keyWordSource w ≠ .timer → (s.key k).state = .locked →
        s'.key k =
          { s.key k with
            source := keyWordSource w
            directDuty := keyWordDuty w
            duty := if keyWordSource w = .direct then keyWordDuty w else 0 } ∧ s'.sched = s.sched) ∧
      (keyWordSource w = .timer → (s.key k).state ≠ .locked → s.fire.queue = [] →
        s'.key k = { s.key k with source := .timer, directDuty := keyWordDuty w } ∧ s'.sched = s.sched) ∧
      (s.fire.queue = [] → ∀ k', k' ≠ k → s'.key k' = s.key k')

/-- The match flags and B-armed are cleared by CUE_CLEAR with a mask of 1 to 3, by a taken write to any word of a channel's
block and by a taken write to CUE_SEQUENTIAL, as the table of R158 gives. The BUS test of a block write's own cycle is made
first here, or finds no KIND BUS (R160); CUE_CLEAR in IDLE is held first (R169). -/
def Obligations.cue_flags_and_arming_are_cleared : Prop :=
  ∀ (t : Instant) (o : BusOrder) (s : State), s.portOpen o → s.noBusCue → s.clock.state ≠ .idle →
    (∀ hi : Option Byte, 1 ≤ s.shadow.arg.toNat → s.shadow.arg.toNat ≤ 3 →
      ∃ s', exec (.cueClear t o hi) s = .next s' ∧ s.answered s' 9 .accepted ∧
        s' = { s.withBook s' with
          mem := (s.commandWrite 9 hi o).written s.mem
          cue := { s.cue with
            flagA := if s.shadow.arg.toNat = 2 then s.cue.flagA else false
            flagB := if s.shadow.arg.toNat = 1 then s.cue.flagB else false
            bArmed := if s.shadow.arg.toNat = 2 then s.cue.bArmed else false }
          shadow := { s.shadow with count := s.shadow.count + 1, result := s'.shadow.result } }) ∧
    (∀ (lanes : Lanes) (data : Word) (ch : Channel) (w : Fin 16), s.validating = false →
      let word := laneMerge lanes (s.shadow.word (offBlock ch + 2 * w.val)) data
      o.cueFirst = true ∨ w.val ≠ 0 → s.blockOk (offBlock ch + 2 * w.val) word = true →
      ∃ s', exec (.cueBlockWrite t o ch w lanes data) s = .next s' ∧
        s' = { s.withBook s' with
          mem := writeLanes s.mem (s.pageBase + (offBlock ch + 2 * w.val)) lanes data
          cue := { s.cue with
            flagA := if ch = .a then false else s.cue.flagA
            flagB := if ch = .b then false else s.cue.flagB
            bArmed := false }
          shadow := { s.shadow.put (offBlock ch + 2 * w.val) word with result := s'.shadow.result } }) ∧
    (∀ (lanes : Lanes) (data : Word), s.validating = false →
      (laneMerge lanes (s.shadow.word offSequential) data).toNat ≤ 1 →
      ∃ s', exec (.cueSequentialWrite t o lanes data) s = .next s' ∧
        s' = { s.withBook s' with
          mem := writeLanes s.mem (s.pageBase + offSequential) lanes data
          cue := { s.cue with flagA := false, flagB := false, bArmed := false }
          shadow := { s.shadow.put offSequential (laneMerge lanes (s.shadow.word offSequential) data) with
            result := s'.shadow.result } })

/-! ## The Cue Unit's tests -/

/-- A value agrees with a pattern of value and mask exactly when the two are equal at every bit that the mask selects; a mask
of 0 agrees with every value, a mask that selects every position with the value alone (R149). -/
def Obligations.agreement_compares_the_masked_bits : Prop :=
  ∀ x value mask : Nat,
    (agrees x value mask = true ↔ ∀ i, mask.testBit i = true → x.testBit i = value.testBit i) ∧
    agrees x value 0 = true ∧
    (∀ width, x < 2 ^ width → value < 2 ^ width → (agrees x value (2 ^ width - 1) = true ↔ x = value))

/-- A processor cycle completes and the Cue Unit's BUS test sees it (R154): kind, byte address (plus one on the high lane alone)
and data word, with 0 for an unused lane. One channel takes part, B in sequential mode only if armed before (R151, R157); it
matches, its flag is set and MATCH is raised with the low 16 bits of the address (R155); A in sequential mode arms B and takes
no action, B there is disarmed; ACTION HOLD holds at once in STARVED, or in PLAYING between lines, is pending within a line, and
makes no request elsewhere (R155, R52, R53). A cycle that disagrees, and B unarmed, do nothing. A withheld write is shown too
(R154), before or after its own report (R160, log 4). That HELD clears starvedSince is log 26; that PD carries the same data
word, with 0 for an unused lane, is the model's choice (log 34). -/
def Obligations.bus_cue_matches_a_read : Prop :=
  ∀ (c : Instr) (t : Instant) (p : ProcCycle) (ch : Channel) (s : State), s.cycleOf c = some (t, p) →
    s.watching = true → s.cue.flag ch = false → s.cueNat ch 0 = 2 →
    (∀ other, other ≠ ch → s.cueNat other 0 ≠ 2) →
    let addr := if p.lanes = .high then 2 * p.wa.toNat + 1 else 2 * p.wa.toNat
    let seen := if p.isWrite then p.data else readWord s.mem (2 * p.wa.toNat)
    let data : Word := match p.lanes with
      | .both => seen
      | .low => seen &&& 0x00FF
      | .high => seen &&& 0xFF00
    let matching : Prop := (s.cueNat ch 6 = 0 → p.isWrite = false) ∧ (s.cueNat ch 6 = 1 → p.isWrite = true) ∧
      agrees addr (s.cueAddr ch 7) (s.cueAddr ch 9) = true ∧
      agrees data.toNat (s.cueNat ch 11) (s.cueNat ch 12) = true ∧
      (ch = .b → s.shadow.sequential = true → s.cue.bArmed = true)
    let cue : State → Cue := fun s' => match ch with
      | .a => { s.cue with flagA := true, bArmed := s.cue.bArmed || s.shadow.sequential }
      | .b => { s.cue with flagB := true, bArmed := if s.shadow.sequential then false else s'.cue.bArmed }
    let holds : Prop := s.cueNat ch 1 = 1 ∧ (ch = .a → s.shadow.sequential = false)
    let cause : Cause := if ch = .a then .cueA else .cueB
    let number : Word := if ch = .a then 1 else 2
    let shown : State → Cue → Clock → Prop := fun s' k clock =>
      s' = { s.withBook s' with
        mem := if p.isWrite then writeLanes s.mem (2 * p.wa.toNat) p.lanes p.data else s.mem
        pd := if p.isWrite then s.pd else data, cue := k, clock := clock }
    let sameClock : State → Clock := fun s' => { s.clock with exprCount := s'.clock.exprCount }
    (s.portOpen p.order → p.isWrite = false ∨ s.classify p.addr = .ordinary ∨ s.classify p.addr = .reportRing →
      (¬ matching → ∃ s', exec c s = .next s' ∧ s.raisedNone s' ∧ shown s' s.cue (sameClock s')) ∧
      (matching → ¬ holds ∨ s.clock.state ≠ .starved ∧ s.clock.state ≠ .playing →
        ∃ s', exec c s = .next s' ∧ s.raised s' .matched number (toWord addr) ∧ shown s' (cue s') (sameClock s')) ∧
      (matching → holds → s.clock.state = .playing → s.clock.lineInProgress = true →
        ∃ s', exec c s = .next s' ∧ s.raised s' .matched number (toWord addr) ∧
          shown s' (cue s') { sameClock s' with pendingHold := s.clock.pendingHold.or (some cause) }) ∧
      (matching → holds →
        s.clock.state = .starved ∨ s.clock.state = .playing ∧ s.clock.lineInProgress = false →
        ∃ s', exec c s = .next s' ∧ s.raisedFirst s' .matched number (toWord addr) ∧
          shown s' (cue s') { sameClock s' with
            state := .held, cause := cause, nextDue := none, waitingDue := none, pendingHold := none
            starveTimer := none, starvedSince := none, exprOwed := s'.clock.exprOwed })) ∧
    (s.rst = false → s.arb.waiting = none → s.shadow.held = none → p.isWrite = true → matching → ¬ holds →
      ∀ off, s.classify p.addr = .setup off → pageWord off = .locked ∨ pageWord off = .partWritten →
      ∃ s', exec c s = .next s' ∧
        (if p.order.cueFirst then s.raisedFirst s' .matched number (toWord addr)
        else s.raisedFirst s' .withheld 0 (toWord off)) ∧
        s' = { s.withBook s' with cue := cue s' })

/-- A BEFORE HOLD match of channel A in PLAYING holds the clock at once with the line kept CURRENT, undecoded and exempt
(R152, R155, R156, R53). That HELD makes the starved-since instant absent is the model's reading (log 26, DEDUCED). -/
def Obligations.before_hold_keeps_the_line : Prop :=
  ∀ (t : Instant) (slot : Fin 128) (a : Nat) (f : Fetch) (s : State), s.rst = false → s.arb.waiting = none →
    s.arb.owner = some (.lineFetch slot a true) → s.ring.fetch = some f → f.count = 17 → s.ring.buffer.length = 17 →
    s.clock.state = .playing → s.ring.buffer.foldl (· + ·) 0 = readWord s.mem a →
    s.ring.buffer.getD 0 0 = s.clock.expected → s.shadow.sequential = false → s.cue.flagA = false →
    s.cueNat .a 0 = 1 → s.cueNat .a 1 = 1 → s.cueNat .a 2 = 0 → s.cueNat .b 0 = 0 →
    agrees s.clock.expected.toNat (s.cueNat .a 3) (s.cueNat .a 4) = true →
    ∃ s', exec (.lineFetchWord t) s = .next s' ∧ s.raisedFirst s' .matched 1 s.clock.expected ∧
      s' = { s.withBook s' with
        ring := { s.ring with fetch := none, buffer := s.ring.buffer ++ [readWord s.mem a] }
        cue := { s.cue with flagA := true, exempt := true }
        clock := { s.clock with
          state := .held, cause := s.clock.pendingHold.getD .cueA, nextDue := none, waitingDue := none
          starveTimer := none, starvedSince := none, pendingHold := none
          exprCount := s'.clock.exprCount, exprOwed := s'.clock.exprOwed } }

/-! ## Commands -/

/-- Outside IDLE a COMMAND_ARG write passes to memory and the intake argument takes the lanes written (R168). In IDLE the part's
read of COMMAND_ARG completes: the argument takes the word read, the held write passes, PWAIT_N is deasserted and the command
is taken, in IDLE (R169, R168, R64, R158). -/
def Obligations.command_argument_is_snooped_or_read : Prop :=
  (∀ (t : Instant) (o : BusOrder) (lanes : Lanes) (data : Word) (s : State), s.commandOpen o →
    ∃ s', exec (.commandArgWrite t o lanes data) s = .next s' ∧
      s' = { s.withBook s' with
        mem := writeLanes s.mem (s.pageBase + offArg) lanes data
        shadow := { s.shadow with arg := laneMerge lanes s.shadow.arg data, result := s'.shadow.result } }) ∧
  (∀ (t : Instant) (c : ProcCycle) (s : State), s.rst = false → s.arb.owner = some .argRead → s.arb.waiting = none →
    s.shadow.held = some c → s.clock.state = .idle →
    let arg := readWord s.mem (s.pageBase + offArg)
    ∃ s', exec (.commandArgRead t) s = .next s' ∧ s'.pwait = false ∧ s'.arb.owner = none ∧
      (c.code = 1 → s.answered s' 1 .accepted ∧
        s' = { s.withBook s' with
          mem := c.written s.mem
          clock := { s.clock with state := .loading, cause := .noCause, exprCount := s'.clock.exprCount }
          ring := { slots := Bank.replicate 128 {}, head := 0, fetch := none, buffer := []
                    base := s.ring.base, nslots := s.ring.nslots }
          shadow := { s.shadow with
            loaded := false, readCount := 0, arg := arg, held := none, count := s.shadow.count + 1
            result := s'.shadow.result }
          report := { s.report with active := false, queue := [], current := none } }) ∧
      (c.code ≠ 1 →
        s.answered s' (if c.code ≤ 9 then c.code else 0)
          (if c.code = 0 ∨ 10 ≤ c.code then .refusedUnknown
          else if c.code = 9 then (if 1 ≤ arg.toNat ∧ arg.toNat ≤ 3 then .accepted else .refusedArg)
          else .refusedState) ∧
        (c.code ≠ 9 ∨ arg.toNat = 0 ∨ 3 < arg.toNat → s'.cue = s.cue) ∧
        (c.code = 9 → 1 ≤ arg.toNat → arg.toNat ≤ 3 →
          s'.cue = { s.cue with
            flagA := if arg.toNat = 2 then s.cue.flagA else false
            flagB := if arg.toNat = 1 then s.cue.flagB else false
            bArmed := if arg.toNat = 2 then s.cue.bArmed else false }) ∧
        s' = { s.withBook s' with
          mem := c.written s.mem
          cue := s'.cue
          shadow := { s.shadow with
            arg := arg, held := none, count := s.shadow.count + 1, result := s'.shadow.result } }))

/-- A COMMAND write taken in IDLE is held with PWAIT_N asserted, even while a part access owns the port, and does not pass yet
(R169): the row COMMAND_WRITE_IN_IDLE, and every other row that writes COMMAND. -/
def Obligations.command_write_in_idle_is_held : Prop :=
  ∀ (s : State), s.rst = false → s.arb.waiting = none → s.shadow.held = none → s.clock.state = .idle →
    (∀ (t : Instant) (o : BusOrder) (lanes : Lanes) (data : Word),
      ∃ s', exec (.commandWriteInIdle t o lanes data) s = .next s' ∧ s'.pwait = true ∧
        s' = { s.withBook s' with
          shadow := { s.shadow with
            held := some (s.pageWrite offCommand lanes data o), result := s'.shadow.result } }) ∧
    (∀ (c : Instr) (t : Instant) (p : ProcCycle), s.cycleOf c = some (t, p) → p.isWrite = true → p.addr = s.pageBase →
      ∃ s', exec c s = .next s' ∧ s'.pwait = true ∧
        s' = { s.withBook s' with shadow := { s.shadow with held := some p, result := s'.shadow.result } })

/-- The table of R64: the playback states in which each known command passes the state check, with the BUSY refusals of
LOADING, STOPPING and a step in progress. A refused command is answered in RESULT, passes to memory, and changes no other
state and raises no report (R168, R64); STEP with no line available is refused EMPTY (R55), CUE_CLEAR with another mask ARG (R158), and a code other
than 1 to 9, or a write without the low lane, UNKNOWN with code echo 0 (R168, section 12.3). -/
def Obligations.refused_command_changes_no_state : Prop :=
  (∀ (st : Playback) (stepping : Bool),
    (∀ c, replyByState st stepping c = .accepted ↔
      c = .cueClear ∨
      c = .load ∧ (st = .idle ∨ st = .ready) ∨
      c = .unload ∧ st = .ready ∨
      c = .start ∧ st = .ready ∨
      c = .hold ∧ (st = .playing ∨ st = .starved) ∨
      (c = .resume ∨ c = .step) ∧ st = .held ∧ stepping = false ∨
      c = .stop ∧ (st = .playing ∨ st = .starved ∨ st = .held ∨ st = .ending) ∨
      c = .silence ∧ st ≠ .idle ∧ st ≠ .loading) ∧
    (∀ c, replyByState st stepping c = .refusedBusy ↔
      c ≠ .cueClear ∧ st = .loading ∨
      c ≠ .cueClear ∧ c ≠ .silence ∧ st = .stopping ∨
      (c = .resume ∨ c = .step) ∧ st = .held ∧ stepping = true) ∧
    (∀ c, replyByState st stepping c = .accepted ∨ replyByState st stepping c = .refusedBusy ∨
      replyByState st stepping c = .refusedState)) ∧
  (∀ (t : Instant) (o : BusOrder) (hi : Option Byte) (s : State) (c : Instr) (n : Nat) (cmd : Command),
    (c, n, cmd) ∈ [(.load t o hi, 1, .load), (.unload t o hi, 2, .unload), (.start t o hi, 3, .start),
      (.hold t o hi, 4, .hold), (.resume t o hi, 5, .resume), (.step t o hi, 6, .step), (.stop t o hi, 7, .stop),
      (.silence t o hi, 8, .silence), (.cueClear t o hi, 9, .cueClear)] →
    s.commandOpen o →
    (replyByState s.clock.state s.clock.stepInProgress cmd ≠ .accepted ∨
      cmd = .step ∧ s.lineHeld = false ∧ s.ring.headReady = false ∨
      cmd = .cueClear ∧ ¬ (1 ≤ s.shadow.arg.toNat ∧ s.shadow.arg.toNat ≤ 3)) →
    ∃ s' r, exec c s = .next s' ∧ s.answered s' n r ∧ s.raisedNone s' ∧
      (replyByState s.clock.state s.clock.stepInProgress cmd ≠ .accepted →
        r = replyByState s.clock.state s.clock.stepInProgress cmd) ∧
      (replyByState s.clock.state s.clock.stepInProgress cmd = .accepted → cmd = .step → r = .refusedEmpty) ∧
      (cmd = .cueClear → r = .refusedArg) ∧
      s' = { s.withBook s' with
        mem := (s.commandWrite n hi o).written s.mem
        shadow := { s.shadow with count := s.shadow.count + 1, result := s'.shadow.result } }) ∧
  (∀ (t : Instant) (o : BusOrder) (lanes : Lanes) (data : Word) (s : State), s.commandOpen o →
    (Instr.unknownCommand t o lanes data).wellFormed = true →
    ∃ s', exec (.unknownCommand t o lanes data) s = .next s' ∧ s.answered s' 0 .refusedUnknown ∧ s.raisedNone s' ∧
      s' = { s.withBook s' with
        mem := writeLanes s.mem s.pageBase lanes data
        shadow := { s.shadow with count := s.shadow.count + 1, result := s'.shadow.result } })

/-- LOAD taken in READY (R171, R12, R178), and UNLOAD taken in READY (R63, R120, R12). -/
def Obligations.load_and_unload_leave_ready : Prop :=
  ∀ (t : Instant) (o : BusOrder) (hi : Option Byte) (s : State), s.commandOpen o → s.clock.state = .ready →
    (∃ s', exec (.load t o hi) s = .next s' ∧ s.answered s' 1 .accepted ∧
      s' = { s.withBook s' with
        mem := (s.commandWrite 1 hi o).written s.mem
        clock := { s.clock with state := .loading, cause := .noCause, exprCount := s'.clock.exprCount }
        ring := { slots := Bank.replicate 128 {}, head := 0, fetch := none, buffer := []
                  base := s.ring.base, nslots := s.ring.nslots }
        shadow := { s.shadow with
          loaded := false, readCount := 0, count := s.shadow.count + 1, result := s'.shadow.result }
        report := { s.report with active := false, queue := [], current := none } }) ∧
    (∃ s', exec (.unload t o hi) s = .next s' ∧ s.answered s' 2 .accepted ∧ s.raised s' .unloaded 0 0 ∧
      (∀ k, s'.key k = { s.key k with
        state := .rest, duty := 0, note := none, nextNote := none, releaseOwed := false, nextOwed := false
        reduced := false, source := .timer, timer := some (s.at t + 50000) }) ∧
      s' = { s.withBook s' with
        mem := (s.commandWrite 2 hi o).written s.mem
        keys := s'.keys
        fire := { s.fire with count := s'.fire.count }
        clock := { s.clock with state := .idle, cause := .noCause, exprCount := s'.clock.exprCount }
        ring := { slots := Bank.replicate 128 {}, head := 0, fetch := none, buffer := []
                  base := s.ring.base, nslots := s.ring.nslots }
        shadow := { s.shadow with loaded := false, count := s.shadow.count + 1, result := s'.shadow.result }
        report := { s.report with
          active := false, queue := s'.report.queue, current := s'.report.current, lost := s'.report.lost } })

/-- START taken in READY (R62, R24, R29, R68, R44, R49): the start values, then the first due at the START instant, which
fetches a ready head or starves the clock. -/
def Obligations.start_takes_the_first_due : Prop :=
  ∀ (t : Instant) (o : BusOrder) (hi : Option Byte) (s : State), s.commandOpen o → s.clock.state = .ready →
    let started : State → Clock → Ring → Prop := fun s' clock ring =>
      s' = { s.withBook s' with
        mem := (s.commandWrite 3 hi o).written s.mem
        clock := clock
        ring := ring
        track := { startTrack s.track with shift := 0 }
        expr := { s.expr with bass := startSide s.expr.base, treble := startSide s.expr.base, soft := false }
        shadow := { s.shadow with count := s.shadow.count + 1, result := s'.shadow.result } }
    (s.ring.headReady = true →
      ∃ s', exec (.start t o hi) s = .next s' ∧ s.answered s' 3 .accepted ∧
        s.raised s' .started s.headWord s.shadow.arg ∧
        started s'
          { s.clock with
            state := .playing, cause := .noCause, expected := s.shadow.arg, exprCount := 0, exprOwed := 0
            nextDue := some (s.at t + s.interval), waitingDue := none, lineInProgress := true
            lineDue := some (s.at t) }
          { s.ring with
            slots := s.ring.slots.set s.ring.head { s.ring.headSlot with state := .current }
            fetch := some { slot := s.ring.head, count := 0 }, buffer := [] }) ∧
    (s.ring.headReady = false →
      ∃ s', exec (.start t o hi) s = .next s' ∧ s.answered s' 3 .accepted ∧
        s.raisedFirst s' .started s.headWord s.shadow.arg ∧
        started s'
          { s.clock with
            state := .starved, cause := .starvation, expected := s.shadow.arg, exprCount := 0, exprOwed := 0
            nextDue := none, waitingDue := none, lineInProgress := false, lineDue := none, pendingHold := none
            starvedSince := some (s.at t)
            starveTimer :=
              if s.shadow.starveLimit = 0 then none else some (s.at t + 1000 * s.shadow.starveLimit) }
          s.ring)

/-- HOLD taken: HELD at once in STARVED, or in PLAYING with no line in progress; otherwise it becomes the pending hold if none
is pending (R52, R53). That HELD makes the starved-since instant absent is the model's reading (log 26, DEDUCED). -/
def Obligations.hold_is_taken_or_waits_for_the_boundary : Prop :=
  ∀ (t : Instant) (o : BusOrder) (hi : Option Byte) (s : State), s.commandOpen o →
    (s.clock.state = .starved ∨ s.clock.state = .playing ∧ s.clock.lineInProgress = false →
      ∃ s', exec (.hold t o hi) s = .next s' ∧ s.answered s' 4 .accepted ∧
        s.raised s' .held 0 (toWord (causeCode .command)) ∧
        s' = { s.withBook s' with
          mem := (s.commandWrite 4 hi o).written s.mem
          clock := { s.clock with
            state := .held, cause := .command, nextDue := none, waitingDue := none, pendingHold := none
            starveTimer := none, starvedSince := none
            exprCount := s'.clock.exprCount, exprOwed := s'.clock.exprOwed }
          shadow := { s.shadow with count := s.shadow.count + 1, result := s'.shadow.result } }) ∧
    (s.clock.state = .playing → s.clock.lineInProgress = true →
      ∃ s', exec (.hold t o hi) s = .next s' ∧ s.answered s' 4 .accepted ∧ s.raisedNone s' ∧
        s' = { s.withBook s' with
          mem := (s.commandWrite 4 hi o).written s.mem
          clock := { s.clock with
            pendingHold := s.clock.pendingHold.or (some .command), exprCount := s'.clock.exprCount }
          shadow := { s.shadow with count := s.shadow.count + 1, result := s'.shadow.result } })

/-- RESUME taken in HELD with no step in progress (R54, R24): the RESUME instant is a due, for the line held CURRENT, for a
ready head, or for the starving of the clock. The decode of the line held CURRENT is marked as finding the frozen level throughout (R79, log 35), and the expression count
goes on from where it froze, with the PLAYING time owed to it (R46, log 22). -/
def Obligations.resume_takes_a_due_at_once : Prop :=
  ∀ (t : Instant) (o : BusOrder) (hi : Option Byte) (s : State), s.commandOpen o → s.clock.state = .held →
    s.clock.stepInProgress = false →
    let cleared : Track := { s.track with candidate := none, candidateCount := 0, noEdge := 0 }
    let playing : Clock := { s.clock with
      state := .playing, cause := .noCause, nextDue := some (s.at t + s.interval), waitingDue := none
      lineInProgress := true, lineDue := some (s.at t)
      exprCount := s.clock.exprCount + s.clock.exprOwed, exprOwed := 0 }
    let resumed : State → Clock → Ring → Track → Expression → Prop := fun s' clock ring track expr =>
      s' = { s.withBook s' with
        mem := (s.commandWrite 5 hi o).written s.mem
        clock := clock, ring := ring, track := track, expr := expr
        shadow := { s.shadow with count := s.shadow.count + 1, result := s'.shadow.result } }
    (s.lineHeld = true →
      ∃ s', exec (.resume t o hi) s = .next s' ∧ s.answered s' 5 .accepted ∧
        s.raised s' .resumed 0 (toWord (causeCode s.clock.cause)) ∧
        resumed s' playing s.ring { cleared with decode := some { frozenThrough := 8 }, lastTag := s.ring.lineTag }
          { s.expr with sample := some (takeSample s.shadow) }) ∧
    (s.lineHeld = false → s.ring.headReady = true →
      ∃ s', exec (.resume t o hi) s = .next s' ∧ s.answered s' 5 .accepted ∧
        s.raised s' .resumed 0 (toWord (causeCode s.clock.cause)) ∧
        resumed s' playing
          { s.ring with
            slots := s.ring.slots.set s.ring.head { s.ring.headSlot with state := .current }
            fetch := some { slot := s.ring.head, count := 0 }, buffer := [] } cleared s.expr) ∧
    (s.lineHeld = false → s.ring.headReady = false →
      ∃ s', exec (.resume t o hi) s = .next s' ∧ s.answered s' 5 .accepted ∧
        s.raisedFirst s' .resumed 0 (toWord (causeCode s.clock.cause)) ∧
        resumed s'
          { s.clock with
            state := .starved, cause := .starvation, nextDue := none, waitingDue := none, lineInProgress := false
            lineDue := none, pendingHold := none, starvedSince := some (s.at t)
            starveTimer :=
              if s.shadow.starveLimit = 0 then none else some (s.at t + 1000 * s.shadow.starveLimit)
            exprCount := min 9999 (s.clock.exprCount + s.clock.exprOwed)
            exprOwed := s.clock.exprCount + s.clock.exprOwed - 9999 } s.ring cleared s.expr)

/-- STEP taken in HELD with no step in progress and a line available (R55, R18, R13). -/
def Obligations.step_decodes_or_fetches_one_line : Prop :=
  ∀ (t : Instant) (o : BusOrder) (hi : Option Byte) (s : State), s.commandOpen o → s.clock.state = .held →
    s.clock.stepInProgress = false →
    (s.lineHeld = true →
      ∃ s', exec (.step t o hi) s = .next s' ∧ s.answered s' 6 .accepted ∧
        s' = { s.withBook s' with
          mem := (s.commandWrite 6 hi o).written s.mem
          clock := { s.clock with
            stepInProgress := true, lineInProgress := true, lineDue := some (s.at t), exprCount := s'.clock.exprCount }
          track := { s.track with decode := some {}, lastTag := s.ring.lineTag }
          expr := { s.expr with sample := some (takeSample s.shadow) }
          shadow := { s.shadow with count := s.shadow.count + 1, result := s'.shadow.result } }) ∧
    (s.lineHeld = false → s.ring.headReady = true →
      ∃ s', exec (.step t o hi) s = .next s' ∧ s.answered s' 6 .accepted ∧
        s' = { s.withBook s' with
          mem := (s.commandWrite 6 hi o).written s.mem
          clock := { s.clock with
            stepInProgress := true, lineInProgress := true, lineDue := some (s.at t), exprCount := s'.clock.exprCount }
          ring := { s.ring with
            slots := s.ring.slots.set s.ring.head { s.ring.headSlot with state := .current }
            fetch := some { slot := s.ring.head, count := 0 }, buffer := [] }
          shadow := { s.shadow with count := s.shadow.count + 1, result := s'.shadow.result } })

/-- STOP taken in PLAYING, STARVED, HELD or ENDING (R59, R20, R39, R118), and the starvation timer running out in STARVED (R51):
HOLDING keys go to RELEASING, FIRING keys finish their pulse, the others keep their state, and keys with a waiting strike are
told that it is gone. No report is raised on entry (R59). That STOPPING makes the starved-since instant absent is the model's
reading (log 26, DEDUCED). -/
def Obligations.stop_and_starvation_enter_stopping : Prop :=
  ∀ (t : Instant) (s : State),
    let stopped : State → Cause → Prop := fun s' c =>
      s.stoppedFrom s' (s.at t) c ∧ s'.fire.count = s.fire.count ∧ s.raisedNone s' ∧
      (∀ k, s'.key k =
        if (s.key k).state = .holding then (s.keyTold k).releasing (s.at t + 100 * s.shadow.recovery)
        else s.keyTold k)
    (∀ (o : BusOrder) (hi : Option Byte), s.commandOpen o →
      s.clock.state = .playing ∨ s.clock.state = .starved ∨ s.clock.state = .held ∨ s.clock.state = .ending →
      ∃ s', exec (.stop t o hi) s = .next s' ∧ s.answered s' 7 .accepted ∧ stopped s' .command ∧
        s' = { s.withBook s' with
          mem := (s.commandWrite 7 hi o).written s.mem
          clock := s'.clock, ring := s'.ring, track := s'.track, cue := s'.cue
          sched := s'.sched, fire := s'.fire, keys := s'.keys, pedals := s'.pedals
          shadow := { s.shadow with count := s.shadow.count + 1, result := s'.shadow.result } }) ∧
    (∀ e : Instant, s.rst = false → s.clock.state = .starved → s.clock.starveTimer = some e → e ≤ s.at t →
      ∃ s', exec (.starvationExpiry t) s = .next s' ∧ stopped s' .starvation ∧
        s' = { s.withBook s' with
          clock := s'.clock, ring := s'.ring, track := s'.track, cue := s'.cue
          sched := s'.sched, fire := s'.fire, keys := s'.keys, pedals := s'.pedals })

/-- SILENCE taken in any state but IDLE and LOADING (R61, R20, R39, R119): FIRING and HOLDING keys go to RELEASING, the firing
count falls by the number of keys that were FIRING (R93, R99), and no report is raised. That STOPPING makes the starved-since
instant absent is the model's reading (log 26, DEDUCED). -/
def Obligations.silence_cuts_every_struck_key : Prop :=
  ∀ (t : Instant) (o : BusOrder) (hi : Option Byte) (s : State), s.commandOpen o → s.clock.state ≠ .loading →
    ∃ s', exec (.silence t o hi) s = .next s' ∧ s.answered s' 8 .accepted ∧
      s.stoppedFrom s' (s.at t) .silence ∧ s.raisedNone s' ∧ s'.fire.count = s.fire.count - s.firingKeys ∧
      (s.firingOk → s'.fire.count = 0) ∧
      (∀ k, s'.key k =
        if (s.key k).state = .firing ∨ (s.key k).state = .holding then
          (s.keyTold k).releasing (s.at t + 100 * s.shadow.recovery)
        else s.keyTold k) ∧
      s' = { s.withBook s' with
        mem := (s.commandWrite 8 hi o).written s.mem
        clock := s'.clock, ring := s'.ring, track := s'.track, cue := s'.cue
        sched := s'.sched, fire := s'.fire, keys := s'.keys, pedals := s'.pedals
        shadow := { s.shadow with count := s.shadow.count + 1, result := s'.shadow.result } }

/-! ## The roll ring -/

/-- A write of word 0 to 16 of a FREE or FILLING slot passes, the slot is FILLING and the word is in its written-word set; no
report is raised (R4, R5, R8). A write of word 17 of a FREE slot, or of a FILLING slot that lacks a word, passes and tears the
line (R7, R4). A FREE slot's set is empty (R3). -/
def Obligations.ring_write_fills_or_tears_a_line : Prop :=
  ∀ (t : Instant) (o : BusOrder) (wa : BitVec 20) (lanes : Lanes) (data : Word) (s : State) (i : Fin 128) (w : Nat),
    s.portOpen o → s.noBusCue → s.classify (2 * wa.toNat) = .ring i w →
    (w ≤ 16 → (s.ring.slots.get i).state = .free ∨ (s.ring.slots.get i).state = .filling →
      ∃ s' l, exec (.ringWrite t o wa lanes data) s = .next s' ∧
        (∀ x, x ∈ l ↔ x = w ∨ x ∈ (s.ring.slots.get i).written) ∧
        ((s.ring.slots.get i).state = .free → (s.ring.slots.get i).written = [] → l = [w]) ∧
        (w ∈ (s.ring.slots.get i).written → (s.ring.slots.get i).written.Pairwise (· < ·) →
          l = (s.ring.slots.get i).written) ∧ s.raisedNone s' ∧
        s' = { s.withBook s' with
          mem := writeLanes s.mem (2 * wa.toNat) lanes data
          ring := { s.ring with
            slots := s.ring.slots.set i { s.ring.slots.get i with state := .filling, written := l } } }) ∧
    (w = 17 → (s.ring.slots.get i).state = .free ∨
        (s.ring.slots.get i).state = .filling ∧ (∃ x, x ≤ 16 ∧ x ∉ (s.ring.slots.get i).written) →
      ∃ s', exec (.ringWrite t o wa lanes data) s = .next s' ∧
        s.raised s' .torn (toWord i.val) (toWord (s.ring.slots.get i).written.length) ∧
        s' = { s.withBook s' with
          mem := writeLanes s.mem (2 * wa.toNat) lanes data
          ring := { s.ring with slots := s.ring.slots.set i { state := .free, written := [], overrunNoted := false } } })

/-- A write of word 17 of a FILLING slot whose set holds words 0 to 16 completes the line (R6); when the slot is the head of a
STARVED clock, the clock is fed at that instant (R50, R44), with the starved time in the report (R42). That the feeding makes
the starved-since instant absent is the model's reading (log 26, DEDUCED). The fetch of the fed line is marked as finding the
level frozen at starvation (R79, log 35), and the expression count goes on with the PLAYING time owed to it (R46, log 22). -/
def Obligations.ring_write_completes_a_line : Prop :=
  ∀ (t : Instant) (o : BusOrder) (wa : BitVec 20) (lanes : Lanes) (data : Word) (s : State) (i : Fin 128),
    s.portOpen o → s.noBusCue → s.classify (2 * wa.toNat) = .ring i 17 →
    (s.ring.slots.get i).state = .filling → (∀ w, w ≤ 16 → w ∈ (s.ring.slots.get i).written) →
    (i ≠ s.ring.head ∨ s.clock.state ≠ .starved →
      ∃ s', exec (.ringWrite t o wa lanes data) s = .next s' ∧ s.raisedNone s' ∧
        (i = s.ring.head → s'.ring.headReady = true) ∧
        s' = { s.withBook s' with
          mem := writeLanes s.mem (2 * wa.toNat) lanes data
          ring := { s.ring with
            slots := s.ring.slots.set i { state := .ready, written := [], overrunNoted := false } } }) ∧
    (i = s.ring.head → s.clock.state = .starved →
      ∃ s', exec (.ringWrite t o wa lanes data) s = .next s' ∧
        s.raised s' .fed (toWord s.ring.head.val)
          (toWord (match s.clock.starvedSince with
            | none => 0
            | some since => min 65535 ((s.at t - since) / 1000))) ∧
        s' = { s.withBook s' with
          mem := writeLanes s.mem (2 * wa.toNat) lanes data
          clock := { s.clock with
            state := .playing, cause := .noCause, starveTimer := none, starvedSince := none
            nextDue := some (s.at t + s.interval), waitingDue := none, lineInProgress := true
            lineDue := some (s.at t), exprCount := s.clock.exprCount + s.clock.exprOwed, exprOwed := 0 }
          ring := { s.ring with
            slots := s.ring.slots.set i { state := .current, written := [], overrunNoted := false }
            fetch := some { slot := i, count := 0, levelFrozen := true }, buffer := [] } })

/-- A write to any word of a READY or CURRENT slot is withheld, at once, whoever owns the port; the first of a READY period
raises OVERRUN (R9). -/
def Obligations.ring_write_to_a_held_slot_is_withheld : Prop :=
  ∀ (t : Instant) (o : BusOrder) (wa : BitVec 20) (lanes : Lanes) (data : Word) (s : State) (i : Fin 128) (w : Nat),
    s.rst = false → s.arb.waiting = none → s.shadow.held = none → s.noBusCue →
    s.classify (2 * wa.toNat) = .ring i w →
    (s.ring.slots.get i).state = .ready ∨ (s.ring.slots.get i).state = .current →
    ∃ s', exec (.ringWrite t o wa lanes data) s = .next s' ∧
      ((s.ring.slots.get i).overrunNoted = false → s.raised s' .overrun (toWord i.val) (toWord w)) ∧
      ((s.ring.slots.get i).overrunNoted = true → s.raisedNone s') ∧
      s' = { s.withBook s' with
        ring := { s.ring with slots := s.ring.slots.set i { s.ring.slots.get i with overrunNoted := true } } }

/-! ## Dues, fetches and decodes -/

/-- The next due arrives in PLAYING (R44, R45, R49, R13): taken with a ready head, starving without one, or waiting while a
line is in progress. -/
def Obligations.line_due_fetches_starves_or_waits : Prop :=
  ∀ (t : Instant) (d : Instant) (s : State), s.rst = false → s.clock.state = .playing → s.clock.nextDue = some d →
    d ≤ s.at t →
    (s.clock.lineInProgress = false → s.ring.headReady = true →
      ∃ s', exec (.lineDue t) s = .next s' ∧
        s' = { s.withBook s' with
          clock := { s.clock with
            nextDue := some (d + s.shadow.lineInterval * 100 / s.shadow.tempo), waitingDue := none
            lineInProgress := true, lineDue := some d, exprCount := s'.clock.exprCount }
          ring := { s.ring with
            slots := s.ring.slots.set s.ring.head { s.ring.headSlot with state := .current }
            fetch := some { slot := s.ring.head, count := 0 }, buffer := [] } }) ∧
    (s.clock.lineInProgress = false → s.ring.headReady = false →
      ∃ s', exec (.lineDue t) s = .next s' ∧
        s.raised s' .starved (toWord s.ring.head.val) s.clock.expected ∧
        s' = { s.withBook s' with
          clock := { s.clock with
            state := .starved, cause := .starvation, nextDue := none, waitingDue := none, lineInProgress := false
            lineDue := none, pendingHold := none, starvedSince := some (s.at t)
            starveTimer :=
              if s.shadow.starveLimit = 0 then none else some (s.at t + 1000 * s.shadow.starveLimit)
            exprCount := s'.clock.exprCount, exprOwed := s'.clock.exprOwed } }) ∧
    (s.clock.lineInProgress = true →
      ∃ s', exec (.lineDue t) s = .next s' ∧
        s' = { s.withBook s' with
          clock := { s.clock with waitingDue := some d, nextDue := none, exprCount := s'.clock.exprCount } })

/-- A word of the fetch before the last is placed in the line buffer and counted (R14); a word of an abandoned fetch is dropped
(R20). With the last word in PLAYING the check and the tag decide (R15, R16, R17, R48): a line whose sum differs from its check
word, or whose tag is not the expected one, is discarded with its report and the same due is offered to the new head; else the
line is accepted and its decode begins (R18, R23), here with no cue of KIND LINE. The mark of a fed line goes with the due: to
its decode, or to the fetch of the line that takes the due after it (R79, log 35). -/
def Obligations.fetched_line_is_discarded_or_accepted : Prop :=
  ∀ (t : Instant) (slot : Fin 128) (a : Nat) (s : State), s.rst = false → s.arb.waiting = none →
    (s.arb.owner = some (.lineFetch slot a false) →
      ∃ s', exec (.lineFetchWord t) s = .next s' ∧ s'.arb.owner = none ∧ s' = s.withBook s') ∧
    (∀ f : Fetch, s.arb.owner = some (.lineFetch slot a true) → s.ring.fetch = some f → f.count < 17 →
      ∃ s', exec (.lineFetchWord t) s = .next s' ∧ s'.arb.owner = none ∧
        s' = { s.withBook s' with
          ring := { s.ring with
            fetch := some { f with count := f.count + 1 }, buffer := s.ring.buffer ++ [readWord s.mem a] } }) ∧
    (∀ (f : Fetch) (due : Instant), s.arb.owner = some (.lineFetch slot a true) → s.ring.fetch = some f →
      f.count = 17 → s.ring.buffer.length = 17 → s.clock.state = .playing → s.clock.lineDue = some due →
      let sum := s.ring.buffer.foldl (· + ·) 0
      let tag := s.ring.buffer.getD 0 0
      let next := s.ring.after s.ring.head
      let discarded : State → Prop := fun s' =>
        s' = { s.withBook s' with
          clock := { s.clock with lineInProgress := true, lineDue := some due, exprCount := s'.clock.exprCount }
          ring := { s.ring with
            slots := (s.ring.slots.set s.ring.head {}).set next { s.ring.slots.get next with state := .current }
            head := next, fetch := some { slot := next, count := 0, levelFrozen := f.levelFrozen }, buffer := [] } }
      (sum ≠ readWord s.mem a → (s.ring.slots.get next).state = .ready → next ≠ s.ring.head →
        ∃ s', exec (.lineFetchWord t) s = .next s' ∧ s.raised s' .check (toWord s.ring.head.val) sum ∧ discarded s') ∧
      (sum = readWord s.mem a → tag ≠ s.clock.expected → (s.ring.slots.get next).state = .ready →
        next ≠ s.ring.head →
        ∃ s', exec (.lineFetchWord t) s = .next s' ∧ s.raised s' .sequence (toWord s.ring.head.val) tag ∧
          discarded s') ∧
      (sum = readWord s.mem a → tag = s.clock.expected → s.cueNat .a 0 ≠ 1 → s.cueNat .b 0 ≠ 1 →
        ∃ s', exec (.lineFetchWord t) s = .next s' ∧ s.raisedNone s' ∧
          s' = { s.withBook s' with
            ring := { s.ring with fetch := none, buffer := s.ring.buffer ++ [readWord s.mem a] }
            cue := { s.cue with exempt := false }
            track := { s.track with decode := some { frozenThrough := if f.levelFrozen then 6 else 0 }, lastTag := tag }
            expr := { s.expr with sample := some (takeSample s.shadow) } }))

/-- Stage 1: with an edge the candidate is dropped, counted, begun or acted on (R25, R26); without one the lines are counted
towards PAPER_LIMIT (R27). -/
def Obligations.stage_one_follows_the_edge : Prop :=
  ∀ (t : Instant) (d : Decode) (s : State), s.rst = false → s.track.decode = some d → d.stage = 1 →
    let ends : State → Option Int → Nat → Nat → Int → Option TrackHold → Prop :=
      fun s' candidate count noEdge shift hold =>
        s' = { s.withBook s' with
          track := { s.track with
            candidate := candidate, candidateCount := count, noEdge := noEdge, shift := shift, pendingHold := hold
            decode := some { d with stage := 2, reached := 0 } } }
    (∀ col : Nat, s.ring.edge = some col →
      let off : Int := (col : Int) - (s.track.edgeNominal : Int)
      let n := if s.track.candidate = some off then s.track.candidateCount + 1 else 1
      ∃ s', exec (.decodeStage ⟨t, none⟩) s = .next s' ∧
        (off = s.track.shift → s.raisedNone s' ∧ ends s' none 0 0 s.track.shift s.track.pendingHold) ∧
        (off ≠ s.track.shift → n < s.track.trackPersist →
          s.raisedNone s' ∧ ends s' (some off) n 0 s.track.shift s.track.pendingHold) ∧
        (off ≠ s.track.shift → s.track.trackPersist ≤ n → -8 ≤ off → off ≤ 8 →
          s.raised s' .shift (signedWord off) (signedWord s.track.shift) ∧
          ends s' none 0 0 off s.track.pendingHold) ∧
        (off ≠ s.track.shift → s.track.trackPersist ≤ n → off < -8 ∨ 8 < off →
          s.raisedNone s' ∧ ends s' none 0 0 s.track.shift (some .tracking))) ∧
    (s.ring.edge = none →
      ∃ s', exec (.decodeStage ⟨t, none⟩) s = .next s' ∧ s.raisedNone s' ∧
        (s.track.noEdge + 1 < s.track.paperLimit →
          ends s' none 0 (s.track.noEdge + 1) s.track.shift s.track.pendingHold) ∧
        (s.track.paperLimit ≤ s.track.noEdge + 1 → ends s' none 0 0 s.track.shift (some .paper)))

/-- Stage 2 (R28, R29): each assigned row is confirmed by its raw reading under the shift, an UNASSIGNED row is left alone, and
the tracks that opened and closed are kept for the later stages. Stage 3 (R30, R70): each side record takes its own seven
tracks, the soft input takes SOFT; no level moves. Stage 4 (R31, R84): every pedal whose target differs gets the target and, not
already due and with room, a MOVE entry in place of any older one (R87); a part of stage 5 (R33, R84, R38) makes a RELEASE for
every key whose NOTE track closed and that is not LOCKED at its turn. Stage 7 (R35): an opened CUE track raises CUE_MARK, an
opened END is marked. Stage 8 (R153, R155, R52): one channel's AFTER test. Run on under STOP or SILENCE, stages 4, 5 and 8 do
nothing and stage 7 marks no END (R39). A band in columns 8 to 63 is read like any other (log 31); that a row may take only the
keys before one given is log 4. -/
def Obligations.stages_two_and_three_confirm_and_hand_over : Prop :=
  ∀ (t : Instant) (d : Decode) (s : State), s.rst = false → s.track.decode = some d →
    (d.stage = 2 →
      ∃ s' opened closed, exec (.decodeStage ⟨t, none⟩) s = .next s' ∧
        (∀ slot : Fin 112,
          let e := s.track.map.get slot
          let row := s.track.rows.get slot
          let opens := ((List.range e.width).filter
            (fun (i : Nat) => s.ring.cellOpen ((e.first : Int) + s.track.shift + (i : Int)).toNat)).length
          let raw := decide (s.track.holeMin ≤ opens)
          let limit := if row.isOpen then s.track.closeConfirm else s.track.openConfirm
          s'.track.rows.get slot =
            (if e.fn = 0 then row
            else if raw = row.isOpen then { isOpen := row.isOpen, count := 0 }
            else if limit ≤ row.count + 1 then { isOpen := raw, count := 0 }
            else { isOpen := row.isOpen, count := row.count + 1 }) ∧
          (slot.val ∈ opened ↔ row.isOpen = false ∧ (s'.track.rows.get slot).isOpen = true) ∧
          (slot.val ∈ closed ↔ row.isOpen = true ∧ (s'.track.rows.get slot).isOpen = false)) ∧
        s' = { s.withBook s' with
          track := { s.track with
            rows := s'.track.rows
            decode := some { d with stage := 3, reached := 0, opened := opened, closed := closed } } }) ∧
    (d.stage = 3 →
      ∃ s', exec (.decodeStage ⟨t, none⟩) s = .next s' ∧ s'.expr.soft = s.track.fnOpen 91 ∧
        (∀ first old new, (first, old, new) ∈ [(93, s.expr.bass, s'.expr.bass), (100, s.expr.treble, s'.expr.treble)] →
          new.level = old.level ∧
          new.step = (if s.track.fnOpen first then 1 else 0) + (if s.track.fnOpen (first + 1) then 2 else 0) +
            (if s.track.fnOpen (first + 2) then 4 else 0) ∧
          new.target = min 31 (s.expr.base + 3 * new.step) * 16 ∧
          new.swell = s.track.fnOpen (first + 3) ∧ new.fade = s.track.fnOpen (first + 4) ∧
          new.rush = s.track.fnOpen (first + 5) ∧ new.accent = s.track.fnOpen (first + 6)) ∧
        s' = { s.withBook s' with
          track := { s.track with decode := some { d with stage := 4, reached := 0 } }
          expr := { s'.expr with copies := s.expr.copies, sample := s.expr.sample } }) ∧
    (∀ ld : Instant, d.stage = 4 → d.muted = false → s.clock.lineDue = some ld → s.sched.length ≤ 125 →
      let target : Pedal → Nat := fun p => match p with
        | .damper => if s.track.fnOpen 89 then 15 else if s.track.fnOpen 90 then s.shadow.halfDepth else 0
        | .soft => if s.track.fnOpen 91 then 15 else 0
        | .sostenuto => if s.track.fnOpen 92 then 15 else 0
      let due : Pedal → Instant := fun p => ld + 100 * (s.shadow.lookahead - s.shadow.pedalLead p)
      (∀ p, target p ≠ (s.pedals.pedal p).target → s.at t < due p) →
      ∃ s', exec (.decodeStage ⟨t, none⟩) s = .next s' ∧ s.raisedNone s' ∧
        (∀ p, s'.pedals.pedal p = { s.pedals.pedal p with target := target p }) ∧
        s'.sched = [Pedal.damper, .soft, .sostenuto].foldl
          (fun l p =>
            if target p = (s.pedals.pedal p).target then l
            else insertEntry { act := .move p (target p), due := due p, tag := s.ring.lineTag }
              (l.filter (fun e => !isMoveOf p e))) s.sched ∧
        s' = { s.withBook s' with
          track := { s.track with decode := some { d with stage := 5, reached := 0 } }
          sched := s'.sched, pedals := { s.pedals with recs := s'.pedals.recs } }) ∧
    (∀ (ld : Instant) (upTo : Option Key), d.stage = 5 → d.muted = false → s.clock.lineDue = some ld →
      s.sched.length ≤ 40 → s.at t < ld + 100 * (s.shadow.lookahead - s.shadow.releaseLead) →
      let last := match upTo with
        | none => 88
        | some k => k.val
      let turn : Key → Bool := fun k => decide (d.reached ≤ k.val) && decide (k.val < last) &&
        d.closed.any (fun slot => decide ((s.track.map.get (Fin.ofNat 112 slot)).fn = k.val + 1))
      ∃ s', exec (.decodeStage ⟨t, upTo⟩) s = .next s' ∧ s.raisedNone s' ∧
        s'.sched = (allKeys.filter (fun k => turn k && decide ((s.key k).state ≠ .locked))).foldl
          (fun l k => insertEntry
            { act := .release k (s.track.serials.get k)
              due := ld + 100 * (s.shadow.lookahead - s.shadow.releaseLead), tag := s.ring.lineTag } l) s.sched ∧
        s' = { s.withBook s' with
          track := { s.track with
            decode := some (match upTo with
              | none => { d with stage := 6, reached := 0 }
              | some k => { d with reached := max d.reached k.val }) }
          sched := s'.sched }) ∧
    (d.stage = 7 →
      let fn : Nat → Nat := fun slot => (s.track.map.get (Fin.ofNat 112 slot)).fn
      ∃ s', exec (.decodeStage ⟨t, none⟩) s = .next s' ∧
        ((∀ slot ∈ d.opened, fn slot ≠ 108) → s.raisedNone s') ∧
        (∀ before slot after, d.opened = before ++ slot :: after → fn slot = 108 →
          (∀ x ∈ before ++ after, fn x ≠ 108) →
          s.raised s' .cueMark (toWord slot) (signedWord s.track.shift)) ∧
        s' = { s.withBook s' with
          track := { s.track with
            decode := some { d with
              stage := 8, reached := 0
              endMark := d.endMark || d.opened.any (fun slot => decide (fn slot = 107)) && !d.muted } } }) ∧
    (d.stage = 8 → d.muted = false →
      let after : State → Cue → Clock → Prop := fun s' cue clock =>
        s' = { s.withBook s' with
          track := { s.track with decode := some { d with stage := 9, reached := 0 } }, cue := cue, clock := clock }
      let sameClock : State → Clock := fun s' => { s.clock with exprCount := s'.clock.exprCount }
      let suits : Channel → Prop := fun ch => s.cueNat ch 0 = 1 ∧ s.cueNat ch 2 = 1 ∧
        agrees s.ring.lineTag.toNat (s.cueNat ch 3) (s.cueNat ch 4) = true ∧
        (s.cueNat ch 5 = 0xFFFF ∨
          (s.track.map.get (Fin.ofNat 112 (s.cueNat ch 5))).fn ≠ 0 ∧
            (s.track.rows.get (Fin.ofNat 112 (s.cueNat ch 5))).isOpen = true)
      ((∀ ch, ¬ suits ch ∨ s.cue.flag ch = true) →
        ∃ s', exec (.decodeStage ⟨t, none⟩) s = .next s' ∧ s.raisedNone s' ∧ after s' s.cue (sameClock s')) ∧
      (∀ ch, s.watching = true → s.shadow.sequential = false → suits ch → s.cue.flag ch = false →
        (∀ other, other ≠ ch → ¬ suits other ∨ s.cue.flag other = true) →
        ∃ s', exec (.decodeStage ⟨t, none⟩) s = .next s' ∧
          s.raised s' .matched (if ch = .a then 1 else 2) s.ring.lineTag ∧
          after s'
            (match ch with
              | .a => { s.cue with flagA := true }
              | .b => { s.cue with flagB := true, bArmed := s'.cue.bArmed })
            { sameClock s' with
              pendingHold :=
                if s.cueNat ch 1 = 1 ∧ s.clock.state = .playing then
                  s.clock.pendingHold.or (some (if ch = .a then .cueA else .cueB))
                else s.clock.pendingHold })) ∧
    (d.muted = true → d.stage = 4 ∨ d.stage = 5 ∨ d.stage = 8 →
      ∃ s', exec (.decodeStage ⟨t, none⟩) s = .next s' ∧ s.raisedNone s' ∧
        s' = { s.withBook s' with
          track := { s.track with decode := some { d with stage := d.stage + 1, reached := 0 } } })

/-- Stage 6, for the keys at their turn (R34, R38, R39, R84): the serial of every key whose NOTE track opened rises, whatever the
key's state; one not LOCKED gets a STRIKE entry with its drive level and the new serial, here not already due and with room;
under STOP or SILENCE none does. The drive level (R66, R75 to R78): the SOFT or NORMAL entry at level / 16 of the key's side,
plus the side's accent when open, plus TRIM, clamped to 1 to 127; the side by SIDE, or by SPLIT_KEY under AUTO. An entry's place
(R85): after every entry due no later, before every later one. Capacity: an entry already due is dispatched as it is made, after
an older MOVE of its pedal has gone (R86, R87); a MOVE replaces its pedal's older MOVE (R87); a STRIKE made into a full schedule
is dropped with DROP_FULL (R88); a RELEASE or MOVE made into one displaces the latest STRIKE with DROP_FULL, or with no STRIKE
there is carried out at once, a RELEASE with EARLY_RELEASE, SCHEDULE_FULL (R89). -/
def Obligations.note_on_raises_the_serial_and_makes_a_strike : Prop :=
  (∀ (t ld : Instant) (upTo : Option Key) (d : Decode) (s : State), s.rst = false → s.track.decode = some d →
    d.stage = 6 → s.clock.lineDue = some ld → s.sched.length ≤ 40 →
    let last := match upTo with
      | none => 88
      | some k => k.val
    let turn : Key → Bool := fun k => decide (d.reached ≤ k.val) && decide (k.val < last) &&
      d.opened.any (fun slot => decide ((s.track.map.get (Fin.ofNat 112 slot)).fn = k.val + 1))
    let due : Key → Instant := fun k =>
      ld + 100 * (s.shadow.lookahead - (s.curveRow (s.expr.driveLevel k)).lead)
    (∀ k, turn k = true → (s.key k).state ≠ .locked → s.at t < due k) →
    ∃ s', exec (.decodeStage ⟨t, upTo⟩) s = .next s' ∧ s.raisedNone s' ∧
      (∀ k, s'.track.serials.get k = if turn k then s.track.serials.get k + 1 else s.track.serials.get k) ∧
      s'.sched = (if d.muted then s.sched
        else (allKeys.filter (fun k => turn k && decide ((s.key k).state ≠ .locked))).foldl
          (fun l k => insertEntry
            { act := .strike k (s.expr.driveLevel k) (s.track.serials.get k + 1), due := due k
              tag := s.ring.lineTag } l) s.sched) ∧
      s' = { s.withBook s' with
        track := { s.track with
          serials := s'.track.serials
          decode := some (match upTo with
            | none => { d with stage := 7, reached := 0 }
            | some k => { d with reached := max d.reached k.val }) }
        sched := s'.sched }) ∧
  (∀ (e : Expression) (c : ExprCopies) (m : Sample) (k : Key), e.copies = some c → e.sample = some m →
    let treble := match (m.voices.get k).side with
      | .auto => decide (c.splitKey ≤ k.val + 1)
      | .bass => false
      | .treble => true
    let side := if treble then e.treble else e.bass
    ∀ i : Fin 32, side.level / 16 = i.val →
      let z : Int := ((if e.soft then m.softMap.get i else m.normal.get i) : Int) +
        (if side.accent then (if treble then m.accentTreble else m.accentBass) else 0 : Nat) + (m.voices.get k).trim
      (z < 1 → e.driveLevel k = 1) ∧ (1 ≤ z → z ≤ 127 → (e.driveLevel k : Int) = z) ∧
        (127 < z → e.driveLevel k = 127)) ∧
  (∀ (e : Entry) (l : List Entry), l.Pairwise (fun x y => x.due ≤ y.due) →
    insertEntry e l = l.filter (fun x => decide (x.due ≤ e.due)) ++ e :: l.filter (fun x => decide (e.due < x.due))) ∧
  (∀ (e : Entry) (s : State),
    let full := 128 ≤ s.sched.length
    let raisedBy : State → ReportKind → Word → Word → Prop := fun s' r subject detail =>
      s.raised s' r subject detail
    (e.due ≤ s.now →
      (∀ p depth, e.act = .move p depth →
        makeEntry e s = handMove p { depth := depth, due := e.due }
          (setSched (s.sched.filter (fun x => !isMoveOf p x)) s)) ∧
      (∀ k serial, e.act = .release k serial → makeEntry e s = takeRelease k serial s) ∧
      (∀ k level serial, e.act = .strike k level serial →
        makeEntry e s = enterQueue
          { key := k, due := e.due, level := level, serial := serial, tag := e.tag
            expiry := e.due + 100 * s.shadow.lateLimit } s)) ∧
    (s.now < e.due →
      (¬ full → (∀ p, isMoveOf p e = true → s.sched.any (isMoveOf p) = false) →
        (makeEntry e s).sched = insertEntry e s.sched ∧ s.raisedNone (makeEntry e s)) ∧
      (∀ p depth, e.act = .move p depth → s.sched.any (isMoveOf p) = true →
        (makeEntry e s).sched = insertEntry e (s.sched.filter (fun x => !isMoveOf p x)) ∧
        s.raisedNone (makeEntry e s)) ∧
      (∀ k level serial, e.act = .strike k level serial → full →
        (makeEntry e s).sched = s.sched ∧ raisedBy (makeEntry e s) .dropFull (toWord (k.val + 1)) e.tag) ∧
      (full → isStrike e = false → (∀ p, isMoveOf p e = true → s.sched.any (isMoveOf p) = false) →
        (∀ before b after k level serial, s.sched = before ++ b :: after → b.act = .strike k level serial →
          (∀ x ∈ before, isStrike x = true → x.due ≤ b.due) → (∀ x ∈ after, isStrike x = true → x.due < b.due) →
          (makeEntry e s).sched = insertEntry e (before ++ after) ∧
          raisedBy (makeEntry e s) .dropFull (toWord (k.val + 1)) b.tag) ∧
        ((∀ x ∈ s.sched, isStrike x = false) →
          (makeEntry e s).sched = s.sched ∧
          (∀ k serial, e.act = .release k serial → (makeEntry e s).keys = (takeRelease k serial s).keys ∧
            raisedBy (makeEntry e s) .earlyRelease (toWord (k.val + 1)) 3) ∧
          (∀ p depth, e.act = .move p depth →
            makeEntry e s = handMove p { depth := depth, due := e.due } s ∧ s.raisedNone (makeEntry e s))))))

/-- The line boundary outside a step, with no hold of the Track Reader (R47, R57, R53, R39): the slot is freed and the expected
tag advances; then ENDING, HELD by the pending hold, the waiting due with the new head ready, or PLAYING on. That HELD makes the
starved-since instant absent is the model's reading (log 26, DEDUCED). -/
def Obligations.line_boundary_frees_the_slot_and_chooses : Prop :=
  ∀ (t : Instant) (d : Decode) (s : State), s.rst = false → s.track.decode = some d → d.stage = 9 →
    s.clock.stepInProgress = false → s.track.pendingHold = none →
    let next := s.ring.after s.ring.head
    let freed : Ring := { s.ring with
      slots := s.ring.slots.set s.ring.head {}, head := next, fetch := none, buffer := [] }
    let base : State → Clock := fun s' => { s.clock with
      lineInProgress := false, lineDue := none, expected := s.clock.expected + 1, exprCount := s'.clock.exprCount }
    let after : State → Ring → Clock → Prop := fun s' ring k => s' = { s.withBook s' with
      ring := ring, track := { s.track with decode := none }, cue := { s.cue with exempt := false }, clock := k }
    (d.muted = true ∨
        d.endMark = false ∧ s.clock.pendingHold = none ∧ s.clock.waitingDue = none →
      ∃ s', exec (.lineBoundary t) s = .next s' ∧ s.raisedNone s' ∧ after s' freed (base s')) ∧
    (d.muted = false → d.endMark = true →
      ∃ s', exec (.lineBoundary t) s = .next s' ∧ s.raised s' .ended 0 (toWord s.sched.length) ∧
        after s' freed { base s' with
          state := .ending, cause := .ending, nextDue := none, waitingDue := none, pendingHold := none
          stepInProgress := false, drained := false, exprOwed := s'.clock.exprOwed }) ∧
    (∀ c, d.muted = false → d.endMark = false → s.clock.pendingHold = some c →
      ∃ s', exec (.lineBoundary t) s = .next s' ∧ s.raised s' .held 0 (toWord (causeCode c)) ∧
        after s' freed { base s' with
          state := .held, cause := c, nextDue := none, waitingDue := none, pendingHold := none
          starveTimer := none, starvedSince := none, exprOwed := s'.clock.exprOwed }) ∧
    (∀ w, d.muted = false → d.endMark = false → s.clock.pendingHold = none → s.clock.waitingDue = some w →
      s.clock.state = .playing → next ≠ s.ring.head → (s.ring.slots.get next).state = .ready →
      ∃ s', exec (.lineBoundary t) s = .next s' ∧ s.raisedNone s' ∧
        after s'
          { freed with
            slots := (s.ring.slots.set s.ring.head {}).set next { s.ring.slots.get next with state := .current }
            fetch := some { slot := next, count := 0 } }
          { base s' with
            nextDue := some (w + s.interval), waitingDue := none, lineInProgress := true, lineDue := some w })

/-- At the boundary of a step (R56): HELD with its cause unchanged, or with the Track Reader's hold as its new cause; the slot
is freed and the expected tag advances (R47). -/
def Obligations.step_ends_at_its_boundary : Prop :=
  ∀ (t : Instant) (d : Decode) (s : State), s.rst = false → s.track.decode = some d → d.stage = 9 →
    s.clock.stepInProgress = true → s.clock.state = .held → d.muted = false → d.endMark = false →
    ∃ s', exec (.lineBoundary t) s = .next s' ∧
      (s.track.pendingHold = none → s.raisedNone s' ∧ s'.clock.cause = s.clock.cause) ∧
      (s.track.pendingHold = some .tracking →
        s'.clock.cause = .tracking ∧ s.raised s' .held 0 (toWord (causeCode .tracking))) ∧
      (s.track.pendingHold = some .paper →
        s'.clock.cause = .paper ∧ s.raised s' .held 0 (toWord (causeCode .paper))) ∧
      s' = { s.withBook s' with
        clock := { s.clock with
          cause := s'.clock.cause, lineInProgress := false, lineDue := none, stepInProgress := false
          pendingHold := none, expected := s.clock.expected + 1, exprCount := s'.clock.exprCount }
        ring := { s.ring with
          slots := s.ring.slots.set s.ring.head {}, head := s.ring.after s.ring.head, fetch := none, buffer := [] }
        cue := { s.cue with exempt := false }
        track := { s.track with decode := none, pendingHold := none } }

/-! ## Expression -/

/-- One expression step moves each side by the row that swell and fade select, never out of 0 to 496 and never a fade below
the target (R71, R72, R73). While a line is to find the frozen level (one that RESUME found held CURRENT, up to its last stage; one
fed from STARVED, in its fetch and up to stage 6) no step is given and the count runs on: the step follows after (R79; log 35).
When PLAYING ends first, here by HOLD, the count freezes just short of 10 ms (R82; that this is 9999 us, the last whole
microsecond, is log 22), and what it leaves out is owed, so that PLAYING time adds up (R46). -/
def Obligations.expression_step_moves_each_level : Prop :=
  (∀ (t : Instant) (s : State), s.rst = false → s.clock.state = .playing →
    10000 ≤ s.clock.exprCount + (s.at t - s.now) →
    (∀ d, s.track.decode = some d → d.frozenThrough < d.stage) → (∀ f, s.ring.fetch = some f → f.levelFrozen = false) →
    let moved : Side → Nat := fun side =>
      let r := if side.rush then s.shadow.fastRate else s.shadow.slowRate
      let q := s.shadow.settleRate
      match side.swell, side.fade with
      | true, true => side.level
      | true, false => min 496 (side.level + r)
      | false, true => if side.level ≤ side.target then side.level else max side.target (side.level - r)
      | false, false =>
        if side.level ≤ side.target then min side.target (side.level + q) else max side.target (side.level - q)
    ∃ s', exec (.expressionStep t) s = .next s' ∧
      s'.clock.exprCount = s.clock.exprCount + (s.at t - s.now) - 10000 ∧
      s' = { s.withBook s' with
        expr := { s.expr with
          bass := { s.expr.bass with level := moved s.expr.bass }
          treble := { s.expr.treble with level := moved s.expr.treble } } }) ∧
  (∀ (t : Instant) (s : State), s.rst = false →
    (∃ d, s.track.decode = some d ∧ d.stage ≤ d.frozenThrough) ∨ (∃ f, s.ring.fetch = some f ∧ f.levelFrozen = true) →
    ∃ s', exec (.expressionStep t) s = .next s' ∧ s' = s.withBook s' ∧
      (s.clock.state = .playing → s'.clock.exprCount = s.clock.exprCount + (s.at t - s.now))) ∧
  (∀ (t : Instant) (o : BusOrder) (hi : Option Byte) (s : State), s.commandOpen o → s.clock.state = .playing →
    s.clock.lineInProgress = false →
    ∃ s', exec (.hold t o hi) s = .next s' ∧ s'.clock.state = .held ∧
      s'.clock.exprCount = min 9999 (s.clock.exprCount + (s.at t - s.now)) ∧
      s'.clock.exprCount + s'.clock.exprOwed = s.clock.exprCount + (s.at t - s.now) + s.clock.exprOwed)

/-- The settle row (R73): a level below the target rises by SETTLE_RATE but not past the target, a level above it falls so; with
SETTLE_RATE 128 any level from 0 to 496 reaches any target from 0 to 496 within four steps; no settle leaves 0 to 496. -/
def Obligations.settle_row_moves_toward_the_target : Prop :=
  ∀ (side : Side) (slow fast settle : Nat), side.swell = false → side.fade = false →
    let settled : Nat → Nat → Nat := fun q level => levelAfter { side with level := level } slow fast q
    (side.level < side.target →
      settled settle side.level = if side.target < side.level + settle then side.target else side.level + settle) ∧
    (side.target < side.level →
      (settled settle side.level : Int) =
        if (side.level : Int) - settle < side.target then (side.target : Int) else side.level - settle) ∧
    (side.level = side.target → settled settle side.level = side.level) ∧
    (side.level ≤ 496 → side.target ≤ 496 →
      settled settle side.level ≤ 496 ∧
      settled 128 (settled 128 (settled 128 (settled 128 side.level))) = side.target)

/-! ## Ending, stopping, loading -/

/-- The drain of ENDING and its completion, the completion of STOPPING (R58, R60, R12), and the end of LOADING after
validation (R174). -/
def Obligations.ending_stopping_and_loading_complete : Prop :=
  ∀ (t : Instant) (s : State), s.rst = false →
    let readied : Cause → State → Prop := fun c s' =>
      s.raised s' .stopped 0 (toWord (causeCode c)) ∧
      s' = { s.withBook s' with
        clock := { s.clock with state := .ready, cause := c, exprCount := s'.clock.exprCount }
        ring := { slots := Bank.replicate 128 {}, head := 0, fetch := none, buffer := []
                  base := s.ring.base, nslots := s.ring.nslots } }
    (s.clock.state = .ending → s.clock.drained = false → s.sched = [] → s.fire.queue = [] → s.keysQuiet = true →
      ∃ s', exec (.endingDrain t) s = .next s' ∧
        (∀ p, s'.pedals.pedal p = { s.pedals.pedal p with target := 0, waiting := (s'.pedals.pedal p).waiting } ∧
          ((s.pedals.pedal p).motion = .fault ∨
            (s'.pedals.pedal p).waiting = some { depth := 0, due := s.at t } ∨
            s'.pedals.link = .sending { pedal := p, depth := 0 } (s.at t) none)) ∧
        s' = { s.withBook s' with
          clock := { s.clock with drained := true, exprCount := s'.clock.exprCount }
          pedals := { s.pedals with recs := s'.pedals.recs, link := s'.pedals.link } }) ∧
    (s.clock.state = .ending → s.clock.drained = true → s.pedals.allSettled = true → s.keysQuiet = true →
      ∃ s', exec (.endingSettled t) s = .next s' ∧ readied .ending s') ∧
    (s.clock.state = .stopping → s.pedals.allSettled = true → s.track.decode = none → s.keysQuiet = true →
      ∃ s', exec (.stoppingComplete t) s = .next s' ∧ readied s.clock.cause s') ∧
    (s.clock.state = .loading → s.shadow.loaded = true → s.pedals.allSettled = true →
      ∃ s', exec (.loaded t) s = .next s' ∧
        s.raised s' .loaded 0
          (toWord (allPedals.filter (fun p => decide ((s.pedals.pedal p).motion = .fault))).length) ∧
        s' = { s.withBook s' with
          clock := { s.clock with state := .ready, cause := .noCause, exprCount := s'.clock.exprCount } })

/-- A setup-load read (R172): a word that passes enters the shadow and the read set; one that fails ends the load with its
offset, in IDLE with cause LOAD_FAULT, the keys at REST and the ring reset (R174, R120, R12). After the last word the conditions
of R173 decide in the same way, in their order, with the offset of the first that fails; with none failing the load succeeds,
and the state stays LOADING (R174). All conditions hold exactly when: the windows of ring, report ring and page fit the memory
and do not meet; RPT_READ is in the ring; every lead is at most LOOKAHEAD; WARM_LIMIT is below HOT_LIMIT; no function is
assigned twice, no two bands overlap, no band is narrower than HOLE_MIN; both cue blocks satisfy R159. -/
def Obligations.setup_load_word_is_checked : Prop :=
  (∀ (t : Instant) (off : Nat) (s : State), s.rst = false → s.arb.waiting = none →
    s.arb.owner = some (.setupLoad off true) →
    let w := readWord s.mem (s.pageBase + off)
    let sh : Shadow := { s.shadow.put off w with readCount := s.shadow.readCount + 1 }
    let failed : Nat → Prop := fun fault =>
      ∃ s', exec (.setupLoadWord t) s = .next s' ∧ s'.arb.owner = none ∧
        (∀ k, (s'.key k).state = .rest ∧ (s'.key k).duty = 0 ∧ (s'.key k).timer = some (s.at t + 50000) ∧
          (s'.key k).source = .timer ∧ (s'.key k).heat = (s.key k).heat) ∧
        s' = { s.withBook s' with
          keys := s'.keys, fire := { s.fire with count := s'.fire.count }
          clock := { s.clock with state := .idle, cause := .loadFault, exprCount := s'.clock.exprCount }
          ring := { slots := Bank.replicate 128 {}, head := 0, fetch := none, buffer := []
                    base := s.ring.base, nslots := s.ring.nslots }
          shadow := { sh with loaded := false, loadFault := fault, result := s'.shadow.result }
          report := { s.report with active := false } }
    (loadWordFault sh.word off = none → s.shadow.readCount + 1 < loadOrder.length →
      ∃ s', exec (.setupLoadWord t) s = .next s' ∧ s'.arb.owner = none ∧
        s' = { s.withBook s' with shadow := { sh with result := s'.shadow.result } }) ∧
    (∀ fault, loadWordFault sh.word off = some fault → failed fault) ∧
    (loadWordFault sh.word off = none → loadOrder.length ≤ s.shadow.readCount + 1 →
      (∀ fault, loadConditionFault s.pageBase sh = some fault → failed fault) ∧
      (loadConditionFault s.pageBase sh = none →
        ∃ s', exec (.setupLoadWord t) s = .next s' ∧ s'.arb.owner = none ∧ s.validatedFrom s' sh (s.at t)))) ∧
  (∀ (page : Nat) (sh : Shadow),
    let meets : Nat → Nat → Nat → Nat → Prop := fun a n b m => ∃ x, a ≤ x ∧ x < a + n ∧ b ≤ x ∧ x < b + m
    let ringLen := 36 * sh.ringSlots
    let rptLen := 8 * sh.rptSize
    0 < sh.ringSlots → 0 < sh.rptSize →
    (0x200000 < sh.ringBase + ringLen → loadConditionFault page sh = some 0x080) ∧
    (loadConditionFault page sh = none ↔
      sh.ringBase + ringLen ≤ 0x200000 ∧ sh.rptBase + rptLen ≤ 0x200000 ∧
      ¬ meets sh.ringBase ringLen page 0x1000 ∧ ¬ meets sh.rptBase rptLen page 0x1000 ∧
      ¬ meets sh.ringBase ringLen sh.rptBase rptLen ∧ sh.rptRead < sh.rptSize ∧
      sh.releaseLead ≤ sh.lookahead ∧ (∀ p, sh.pedalLead p ≤ sh.lookahead) ∧
      (∀ r, r < 32 → (sh.curveRow r).lead ≤ sh.lookahead) ∧ sh.warmLimit < sh.hotLimit ∧
      (∀ i j, i < j → j < 112 → (sh.mapEntry i).fn ≠ 0 → (sh.mapEntry j).fn ≠ 0 →
        (sh.mapEntry i).fn ≠ (sh.mapEntry j).fn ∧
          ((sh.mapEntry i).first + (sh.mapEntry i).width ≤ (sh.mapEntry j).first ∨
            (sh.mapEntry j).first + (sh.mapEntry j).width ≤ (sh.mapEntry i).first)) ∧
      (∀ i, i < 112 → (sh.mapEntry i).fn ≠ 0 → sh.holeMin ≤ (sh.mapEntry i).width) ∧
      cueBlockOk (fun n => (sh.cueWord .a n).toNat) = true ∧ cueBlockOk (fun n => (sh.cueWord .b n).toNat) = true))

/-- The success of validation gives the blocks their copies and start values, brings the keys into line with their SOURCE and
initialises the pedals (R174, R12, R22, R24, R29, R67, R68, R117, R124, R147, R158, R178, R181). That the byte in progress ends
at the first byte border after the instant is log 19; nothing but these parts and the update list changes. -/
def Obligations.validation_success_gives_copies_and_start_values : Prop :=
  ∀ s : State,
    let s' := loadSucceeds s
    s.validatedFrom s' s.shadow s.now ∧ s'.clock = s.clock ∧ s'.arb = s.arb ∧ s'.now = s.now ∧
      s'.shadow = { s.shadow with loaded := true, loadFault := 0 } ∧
      s' = { s with
        shadow := s'.shadow, ring := s'.ring, track := s'.track, expr := s'.expr, heat := s'.heat, keys := s'.keys
        sched := s'.sched, fire := s'.fire, cue := s'.cue, report := s'.report, pedals := s'.pedals
        updates := s'.updates }

/-! ## Schedule, firing queue, keys -/

/-- The one due entry (R91, R92). A RELEASE by the table of R109, stale changing nothing (R108); a note of a REST or RELEASING
key is its waiting strike's. A MOVE waits or is sent at once by a free link (R135, R139); for a pedal in FAULT it is discarded.
A STRIKE first replaces the strike its key has waiting, with DROP_LATE (R94); the key takes it by its state, and sounding
another note it ends that note's RELEASE (R95, R103); a free key with a place open is struck, or its strike dropped with
DROP_HOT (R96, R97, R105); else the strike waits at its place (R93), or is dropped at once when its expiry has come (R98, R104).
No other strike is held that could be granted, as R96 leaves it. A LOCKED key gets no strike (R95); that the model drops one is
log 27. -/
def Obligations.due_entry_is_dispatched : Prop :=
  (∀ (t : Instant) (e : Entry) (rest : List Entry) (s : State), s.rst = false → s.dispatches = true →
    s.sched = e :: rest → e.due ≤ s.at t → (∀ x ∈ rest, s.at t < x.due) →
    let releasing : KeyRec → Option Byte → Bool → KeyRec := fun r note owed =>
      { r with
        state := .releasing, duty := 0, timer := some (s.at t + 100 * s.shadow.recovery), reduced := false
        note := note, releaseOwed := owed, nextNote := none, nextOwed := false }
    let idle : Prop := ∃ s', exec (.scheduleDispatch t) s = .next s' ∧ s.raisedNone s' ∧
      s' = { s.withBook s' with sched := rest }
    (∀ k serial, e.act = .release k serial →
      let r := s.key k
      ∃ s', exec (.scheduleDispatch t) s = .next s' ∧ s.raisedNone s' ∧
        s'.key k =
          (if r.state = .locked then r
          else if r.note = some serial then
            if r.state = .holding ∧ r.timer = none then
              releasing r r.nextNote (r.nextNote.isSome && r.nextOwed)
            else { r with releaseOwed := true }
          else if r.nextNote = some serial ∧ (r.state = .firing ∨ r.state = .holding) then { r with nextOwed := true }
          else r) ∧
        (∀ k', k' ≠ k → s'.key k' = s.key k') ∧ s' = { s.withBook s' with sched := rest, keys := s'.keys }) ∧
    (∀ p depth, e.act = .move p depth →
      let moved : Option Move → Link → Prop := fun waiting link =>
        ∃ s', exec (.scheduleDispatch t) s = .next s' ∧ s.raisedNone s' ∧
          s'.pedals.pedal p = { s.pedals.pedal p with waiting := waiting } ∧
          (∀ q, q ≠ p → s'.pedals.pedal q = s.pedals.pedal q) ∧
          s' = { s.withBook s' with sched := rest, pedals := { s.pedals with recs := s'.pedals.recs, link := link } }
      ((s.pedals.pedal p).motion = .fault → (s.pedals.link = .idle → choosePedal s.pedals = none) → idle) ∧
      ((s.pedals.pedal p).motion ≠ .fault → s.pedals.link ≠ .idle →
        moved (some { depth := depth, due := e.due }) s.pedals.link) ∧
      ((s.pedals.pedal p).motion ≠ .fault → s.pedals.link = .idle → choosePedal s.pedals = none →
        moved none (.sending { pedal := p, depth := depth } (s.at t) none))) ∧
    (∀ k level serial, e.act = .strike k level serial →
      let r := s.key k
      let number := toWord (k.val + 1)
      let others := s.fire.queue.filter (fun x => decide (x.key ≠ k))
      let w : Waiting :=
        { key := k, due := e.due, level := level, serial := serial, tag := e.tag
          expiry := e.due + 100 * s.shadow.lateLimit }
      let replaced := (s.fire.queue.find? (fun x => decide (x.key = k))).toList.map
        (fun old => (ReportKind.dropLate, number, old.tag))
      let after : List (ReportKind × Word × Word) → KeyRec → List Entry → Fire → Prop := fun raised kr sched fire =>
        ∃ s', exec (.scheduleDispatch t) s = .next s' ∧ s.raisedExactly s' (replaced ++ raised) ∧ s'.key k = kr ∧
          (∀ k', k' ≠ k → s'.key k' = s.key k') ∧
          s' = { s.withBook s' with sched := sched, keys := s'.keys, fire := fire }
      let waits : KeyRec → KeyRec → List Entry → Prop := fun joined gone sched =>
        if w.expiry ≤ s.at t then
          after [(.dropLate, number, e.tag)] gone sched { s.fire with queue := others }
        else after [] joined sched { s.fire with queue := insertWaiting w others }
      (s.fire.count < s.shadow.fireBudget → ∀ x ∈ others, (s.key x.key).free = false) →
      (r.free = true → s.fire.count < s.shadow.fireBudget → r.heat < s.heat.hot →
        after [] { s.grantedAt (s.at t) w with releaseOwed := false } rest
          { queue := others, count := s.fire.count + 1 }) ∧
      (r.free = true → s.fire.count < s.shadow.fireBudget → s.heat.hot ≤ r.heat →
        after [(.dropHot, number, e.tag)] { r with note := none, releaseOwed := false } rest
          { s.fire with queue := others }) ∧
      (r.state = .rest ∨ r.state = .releasing → r.free = false ∨ s.shadow.fireBudget ≤ s.fire.count →
        waits { r with note := some serial, releaseOwed := false } { r with note := none, releaseOwed := false } rest) ∧
      (r.state = .firing ∨ r.state = .holding ∧ r.timer ≠ none →
        waits { r with nextNote := some serial, nextOwed := false, releaseOwed := true }
          { r with nextNote := none, nextOwed := false, releaseOwed := true } (s.noteEnded k rest)) ∧
      (r.state = .holding → r.timer = none →
        waits (releasing r (some serial) false) (releasing r none false) (s.noteEnded k rest)) ∧
      (r.state = .locked → idle))) ∧
  (∀ (w : Waiting) (q : List Waiting),
    let before : Waiting → Waiting → Bool := fun x y => decide (x.due < y.due ∨ x.due = y.due ∧ x.key < y.key)
    q.Pairwise (fun x y => before x y = true) →
      insertWaiting w q = q.filter (fun x => before x w) ++ w :: q.filter (fun x => !before x w))

/-- A waiting strike whose expiry instant has arrived is dropped with DROP_LATE, and its key is told (R98, R104). -/
def Obligations.late_strike_is_dropped : Prop :=
  ∀ (t : Instant) (k : Key) (w : Waiting) (s : State), s.rst = false → waitingOf k s.fire.queue = some w →
    w.expiry ≤ s.at t →
    ∃ s', exec (.dropLate t k) s = .next s' ∧ s.raised s' .dropLate (toWord (keyNumber k)) w.tag ∧
      ((s.key k).state = .rest ∨ (s.key k).state = .releasing →
        s'.key k = { s.key k with note := none, releaseOwed := false }) ∧
      ((s.key k).state = .firing ∨ (s.key k).state = .holding →
        s'.key k = { s.key k with nextNote := none, nextOwed := false }) ∧
      (∀ k', k' ≠ k → s'.key k' = s.key k') ∧
      s' = { s.withBook s' with
        keys := s'.keys
        fire := { s.fire with queue := s.fire.queue.filter (fun x => decide (x.key ≠ k)) } }

/-- A strike pulse ends (R106, R118): the key enters HOLDING with MIN_HOLD loaded, or RELEASING in STOPPING, and leaves the
firing count; with MIN_HOLD 0 the timer expires at the entry (R107). With no strike that can be granted nothing more happens;
else the freed place of a full budget goes at once to the first strike in queue order whose key is free, here not hot (R96,
R105). -/
def Obligations.pulse_end_enters_holding_or_releasing : Prop :=
  ∀ (t : Instant) (k : Key) (first : Bool) (e : Instant) (s : State), s.rst = false →
    (s.key k).state = .firing → (s.key k).timer = some e → e ≤ s.at t →
    let ended : KeyRec → Prop := fun r =>
      ((∀ x ∈ s.fire.queue, (s.key x.key).free = false) →
        ∃ s', exec (.pulseEnd t k first) s = .next s' ∧ s.raisedNone s' ∧ s'.key k = r ∧
          (∀ k', k' ≠ k → s'.key k' = s.key k') ∧
          s' = { s.withBook s' with keys := s'.keys, fire := { s.fire with count := s.fire.count - 1 } }) ∧
      (∀ (before : List Waiting) (w : Waiting) (after : List Waiting), s.fire.queue = before ++ w :: after →
        (∀ x ∈ before, (s.key x.key).free = false) → (∀ x ∈ before ++ after, x.key ≠ w.key) →
        (s.key w.key).free = true → (s.key w.key).heat < s.heat.hot →
        0 < s.fire.count → s.fire.count = s.shadow.fireBudget →
        ∃ s', exec (.pulseEnd t k first) s = .next s' ∧ s.raisedNone s' ∧ s'.key k = r ∧
          s'.key w.key = s.grantedAt (s.at t) w ∧ (∀ k', k' ≠ k → k' ≠ w.key → s'.key k' = s.key k') ∧
          s' = { s.withBook s' with
            keys := s'.keys, fire := { queue := before ++ after, count := s.fire.count } })
    (s.clock.state ≠ .stopping → (s.key k).heat < s.heat.warm → s.heat.warm < s.heat.hot →
      (0 < s.shadow.minHold →
        ended { s.key k with
          state := .holding, holdStart := s.at t, duty := s.shadow.holdDuty
          timer := some (s.at t + 100 * s.shadow.minHold) }) ∧
      (s.shadow.minHold = 0 → (s.key k).releaseOwed = false →
        ended { s.key k with
          state := .holding, holdStart := s.at t, duty := s.shadow.holdDuty, timer := none }) ∧
      (s.shadow.minHold = 0 → (s.key k).releaseOwed = true →
        ended { s.key k with
          holdStart := s.at t
          state := .releasing, duty := 0, timer := some (s.at t + 100 * s.shadow.recovery), reduced := false
          note := (s.key k).nextNote, releaseOwed := (s.key k).nextNote.isSome && (s.key k).nextOwed
          nextNote := none, nextOwed := false })) ∧
    (s.clock.state = .stopping →
      ended { s.key k with
        state := .releasing, duty := 0, timer := some (s.at t + 100 * s.shadow.recovery), reduced := false
        note := (s.key k).nextNote, releaseOwed := (s.key k).nextNote.isSome && (s.key k).nextOwed
        nextNote := none, nextOwed := false })

/-- The MIN_HOLD timer of a HOLDING key expires: released if owed, else held on (R107, R110). RECOVERY, or the 50 ms timer,
runs out: the key is REST and free (R111, R105); a strike that waits for it is granted if a place is open, its release-owed kept
(R96, R105), or dropped with DROP_HOT if the key is hot (R97, R104), and waits on if the budget is full. -/
def Obligations.key_timers_release_and_free_the_key : Prop :=
  ∀ (t : Instant) (k : Key) (e : Instant) (s : State), s.rst = false → (s.key k).timer = some e → e ≤ s.at t →
    let frees : Instr → Prop := fun i =>
      let after : KeyRec → Fire → State → Prop := fun r fire s' =>
        s'.key k = r ∧ (∀ k', k' ≠ k → s'.key k' = s.key k') ∧ s' = { s.withBook s' with keys := s'.keys, fire := fire }
      let rested : KeyRec := { s.key k with state := .rest, timer := none }
      rested.free = true ∧
      ((∀ x ∈ s.fire.queue, x.key ≠ k ∧ (s.key x.key).free = false) ∨ s.shadow.fireBudget ≤ s.fire.count →
        ∃ s', exec i s = .next s' ∧ s.raisedNone s' ∧ after rested s.fire s') ∧
      (∀ (before : List Waiting) (w : Waiting) (later : List Waiting), s.fire.queue = before ++ w :: later → w.key = k →
        (∀ x ∈ before ++ later, x.key ≠ k ∧ (s.key x.key).free = false) → s.fire.count < s.shadow.fireBudget →
        ((s.key k).heat < s.heat.hot →
          ∃ s', exec i s = .next s' ∧ s.raisedNone s' ∧
            after (s.grantedAt (s.at t) w) { queue := before ++ later, count := s.fire.count + 1 } s') ∧
        (s.heat.hot ≤ (s.key k).heat →
          ∃ s', exec i s = .next s' ∧ s.raisedExactly s' [(.dropHot, toWord (k.val + 1), w.tag)] ∧
            after { rested with note := none, releaseOwed := false } { s.fire with queue := before ++ later } s'))
    ((s.key k).state = .holding →
      ∃ s', exec (.minHoldExpiry t k) s = .next s' ∧ s.raisedNone s' ∧
        s'.key k =
          (if (s.key k).releaseOwed then
            { s.key k with
              state := .releasing, duty := 0, timer := some (s.at t + 100 * s.shadow.recovery), reduced := false
              note := (s.key k).nextNote, releaseOwed := (s.key k).nextNote.isSome && (s.key k).nextOwed
              nextNote := none, nextOwed := false }
          else { s.key k with timer := none }) ∧
        (∀ k', k' ≠ k → s'.key k' = s.key k') ∧ s' = { s.withBook s' with keys := s'.keys }) ∧
    ((s.key k).state = .releasing → frees (.recoveryExpiry t k)) ∧
    ((s.key k).state = .rest → frees (.keyResetTimerExpiry t k))

/-- At a heat step every heat is replaced by H + d * HEAT_GAIN / 16 - COOL_RATE, clamped, with the applied duty d at the
instant of the step, and a HOLDING key is tested (R125, R121, R102, R129). At the start of a KD period every output takes up its
applied duty (R122, R121): in that period KD is on for duty * 3.125 us (25 eighths of a microsecond of the period's 400), off
for the rest, off throughout at 0, on throughout at 16, and off while RST_N is asserted. That the on-time comes first in the
period is the model's reading (log 32). -/
def Obligations.heat_steps_and_kd_periods_use_the_applied_duty : Prop :=
  ∀ (t : Instant) (s : State),
    let applied : Key → Nat := fun k => if s.inh = true ∧ (s.key k).source = .timer then 0 else (s.key k).duty
    let heat : Key → Nat := fun k => min 65535 ((s.key k).heat + applied k * s.heat.gain / 16 - s.heat.cool)
    (s.rst = false → s.heat.next ≤ s.at t →
      ∃ s', exec (.heatStep t) s = .next s' ∧
        (∀ k, (s'.key k).heat = heat k) ∧
        (∀ k, (s.key k).state ≠ .holding ∨ heat k < s.heat.warm ∧ heat k < s.heat.hot →
          s'.key k = { s.key k with heat := heat k }) ∧
        (∀ k, (s.key k).state = .holding → s.heat.hot ≤ heat k →
          s'.key k = { s.key k with
            heat := heat k
            state := .releasing, duty := 0, timer := some (s.at t + 100 * s.shadow.recovery), reduced := false
            note := (s.key k).nextNote, releaseOwed := (s.key k).nextNote.isSome && (s.key k).nextOwed
            nextNote := none, nextOwed := false }) ∧
        s' = { s.withBook s' with
          heat := { s.heat with next := s.heat.next + 1000 }, keys := s'.keys, sched := s'.sched }) ∧
    (s.rst = false → s.kdNext ≤ s.at t →
      ∃ s', exec (.kdPeriodStart t) s = .next s' ∧ s.raisedNone s' ∧
        (∀ k, s'.key k = { s.key k with kd := applied k }) ∧
        (∀ k e, s'.kdOnAt k e = decide (e < 25 * applied k)) ∧
        s' = { s.withBook s' with kdNext := s.kdNext + 50, keys := s'.keys }) ∧
    (∀ k, (s.key k).kd ≤ 16 → s.rst = false →
      ((List.range 400).filter (s.kdOnAt k)).length = 25 * (s.key k).kd ∧
      ((s.key k).kd = 0 → ∀ e, s.kdOnAt k e = false) ∧ ((s.key k).kd = 16 → ∀ e, e < 400 → s.kdOnAt k e = true)) ∧
    (s.rst = true → ∀ k e, s.kdOnAt k e = false)

/-- The test of a HOLDING key (R129, R130, R131): early release when hot, or warm and sustained; reduced once when warm and
not sustained; else nothing. An early release, whatever its cause (R130): the key goes to RELEASING (R110), its note's RELEASE
leaves the schedule (R90), and EARLY_RELEASE is raised with the cause as detail, HOT 1 or WARM_SUSTAINED 2 (section 12.5). -/
def Obligations.held_key_is_tested_against_the_limits : Prop :=
  ∀ (k : Key) (s : State), (s.key k).state = .holding → s.heat.warm < s.heat.hot →
    let sustained := decide ((s.pedals.pedal .damper).motion ≠ .fault ∧ s.heat.sustain ≤ (s.pedals.pedal .damper).depth) ||
      s.pedals.sost.contains k
    (s.heat.hot ≤ (s.key k).heat → heatTest k s = earlyRelease k 1 s) ∧
    ((s.key k).heat < s.heat.hot → s.heat.warm ≤ (s.key k).heat → sustained = true →
      heatTest k s = earlyRelease k 2 s) ∧
    ((s.key k).heat < s.heat.hot → s.heat.warm ≤ (s.key k).heat → sustained = false → (s.key k).reduced = false →
      (heatTest k s).key k = { s.key k with reduced := true, duty := s.shadow.holdDuty / 2 } ∧
      s.raisedExactly (heatTest k s) [(.holdReduced, toWord (keyNumber k), toWord (s.key k).heat)] ∧
      (∀ k', k' ≠ k → (heatTest k s).key k' = s.key k') ∧
      heatTest k s = { s.withBook (heatTest k s) with keys := (heatTest k s).keys }) ∧
    ((s.key k).heat < s.heat.warm ∨
        (s.key k).heat < s.heat.hot ∧ sustained = false ∧ (s.key k).reduced = true → heatTest k s = s) ∧
    (∀ cause : Word,
      let s' := earlyRelease k cause s
      s'.key k = { s.key k with
        state := .releasing, duty := 0, timer := some (s.now + 100 * s.shadow.recovery), reduced := false
        note := (s.key k).nextNote, releaseOwed := (s.key k).nextNote.isSome && (s.key k).nextOwed
        nextNote := none, nextOwed := false } ∧
      s.raisedExactly s' [(.earlyRelease, toWord (keyNumber k), cause)] ∧
      (∀ k', k' ≠ k → s'.key k' = s.key k') ∧
      s' = { s.withBook s' with keys := s'.keys, sched := s.noteEnded k s.sched })

/-! ## Pedals -/

/-- The MOVE frame has been sent: the link awaits the reply, with the reply timer loaded (R139). Aborted by the pedal
initialisation, the frame ends with its byte and the link is free (R147). An ACK that matches the frame in flight, received whole
(R141): the pedal is MOVING with its travel timer started, and the link is free. A free link sends at once the waiting move with
the earliest due, the lower pedal number on a tie, so the damper's after an initialisation; with none it is IDLE (R139). -/
def Obligations.frames_are_sent_and_acknowledged : Prop :=
  (∀ (t : Instant) (s : State), s.rst = false →
    (∀ (f : Frame) (start : Instant), s.pedals.link = .sending f start none → start + 120 ≤ s.at t →
      ∃ s', exec (.moveFrameSent t) s = .next s' ∧ s.raisedNone s' ∧
        s' = { s.withBook s' with
          pedals := { s.pedals with link := .awaiting f (s.at t + 100 * s.pedals.replyTimeout) } }) ∧
    (∀ (f : Frame) (start e : Instant), s.pedals.link = .sending f start (some e) → e ≤ s.at t →
      ∃ s', exec (.linkByteEndAbort t) s = .next s' ∧ s.raisedNone s' ∧
        s'.linkNext (s.at t) (choosePedal s.pedals) s.pedals.pedal ∧
        s' = { s.withBook s' with
          pedals := { s.pedals with recs := s'.pedals.recs, link := s'.pedals.link } }) ∧
    (∀ (p : Pedal) (depth : BitVec 4) (e : Instant), s.pedals.rxBytes = [] →
      s.pedals.link = .awaiting { pedal := p, depth := depth.toNat } e →
      ∃ s', exec (.ack t p depth) s = .next s' ∧ s.raisedNone s' ∧
        s'.linkNext (s.at t) (choosePedal s.pedals)
          (fun q =>
            if q = p then
              { s.pedals.pedal p with
                motion := .moving, retries := 0, travel := some (s.at t + 1000 * s.pedals.travelLimit) }
            else s.pedals.pedal q) ∧
        s' = { s.withBook s' with
          pedals := { s.pedals with
            recs := s'.pedals.recs, link := s'.pedals.link, rxBytes := [], rxEnd := s.at t } })) ∧
  (∀ u : PedalUnit,
    (choosePedal u = none ↔ ∀ p, (u.pedal p).waiting = none) ∧
    (∀ p m, choosePedal u = some (p, m) ↔ (u.pedal p).waiting = some m ∧
      ∀ q n, (u.pedal q).waiting = some n → m.due < n.due ∨ m.due = n.due ∧ pedalNumber p ≤ pedalNumber q) ∧
    (∀ depth due, (∀ p, (u.pedal p).waiting = some { depth := depth, due := due }) →
      choosePedal u = some (.damper, { depth := depth, due := due })))

/-- A NAK that matches, or the expiry of the reply timer (R142, R143): the frame is sent again with the newest depth, or the
pedal goes to FAULT with cause RETRIES. The travel timer expires: the pedal goes to FAULT with cause TRAVEL (R144, R143). After a
fault a link that held the pedal's own frame, or was IDLE, is free: it sends another pedal's waiting move at once or is IDLE
(R143, R139); a link busy with another pedal's frame is as it was. -/
def Obligations.failed_moves_are_retransferred_or_fault : Prop :=
  ∀ (t : Instant) (p : Pedal) (s : State), s.rst = false →
    let faulted : Word → State → Prop := fun cause s' =>
      let broken : PedalRec := { s.pedals.pedal p with motion := .fault, travel := none, waiting := none }
      let recs : Pedal → PedalRec := fun q => if q = p then broken else s.pedals.pedal q
      let others := choosePedal { s.pedals with recs := s.pedals.recs.set (pedalIndex p) broken }
      (s.pedals.link = .idle ∨ s.pedals.inFlight p = true → s'.linkNext (s.at t) others recs) ∧
        (s.pedals.link ≠ .idle → s.pedals.inFlight p = false →
          s'.pedals.link = s.pedals.link ∧ ∀ q, s'.pedals.pedal q = recs q) ∧
        (p = .sostenuto → s'.pedals.sost = []) ∧ (p ≠ .sostenuto → s'.pedals.sost = s.pedals.sost) ∧
        s.raisedExactly s' [(.pedalFault, toWord (pedalNumber p), cause)]
    (∀ (depth : BitVec 4) (e : Instant), s.pedals.rxBytes = [] →
      s.pedals.link = .awaiting { pedal := p, depth := depth.toNat } e →
      let again : State → Prop := fun s' =>
        s'.pedals.link = .sending
            { pedal := p
              depth := match (s.pedals.pedal p).waiting with
                | none => depth.toNat
                | some m => m.depth } (s.at t) none ∧
          s'.pedals.pedal p = { s.pedals.pedal p with retries := (s.pedals.pedal p).retries + 1, waiting := none } ∧
          (∀ q, q ≠ p → s'.pedals.pedal q = s.pedals.pedal q) ∧ s'.pedals.sost = s.pedals.sost ∧ s.raisedNone s'
      let sameRest : State → Prop := fun s' => s' = { s.withBook s' with
        pedals := { s.pedals with recs := s'.pedals.recs, link := s'.pedals.link, sost := s'.pedals.sost } }
      let received : State → Prop := fun s' => s' = { s.withBook s' with
        pedals := { s.pedals with
          recs := s'.pedals.recs, link := s'.pedals.link, sost := s'.pedals.sost, rxBytes := [], rxEnd := s.at t } }
      ((s.pedals.pedal p).retries < s.pedals.maxRetries →
        (∃ s', exec (.nak t p depth) s = .next s' ∧ again s' ∧ received s') ∧
        (e ≤ s.at t → ∃ s', exec (.replyTimeoutExpiry t) s = .next s' ∧ again s' ∧ sameRest s')) ∧
      (s.pedals.maxRetries ≤ (s.pedals.pedal p).retries →
        (∃ s', exec (.nak t p depth) s = .next s' ∧ faulted 1 s' ∧ received s') ∧
        (e ≤ s.at t → ∃ s', exec (.replyTimeoutExpiry t) s = .next s' ∧ faulted 1 s' ∧ sameRest s'))) ∧
    (∀ e : Instant, (s.pedals.pedal p).travel = some e → e ≤ s.at t →
      ∃ s', exec (.travelExpiry t p) s = .next s' ∧ faulted 2 s' ∧
        s' = { s.withBook s' with
          pedals := { s.pedals with recs := s'.pedals.recs, link := s'.pedals.link, sost := s'.pedals.sost } })

/-- An ARRIVED frame, received whole, for a pedal not in FAULT (R144, R145): depth, AT_REST, travel timer stopped, the
sostenuto set and its report. While the settling of the pedals is awaited, an arrival at another depth than 0, with no move
waiting and no frame of its own in flight, is followed by a move to 0, which waits or is sent at once by an idle link (R144,
R135, R139); else none follows. For a pedal in FAULT the frame is ignored. -/
def Obligations.arrival_sets_depth_and_sostenuto_set : Prop :=
  ∀ (t : Instant) (p : Pedal) (depth : BitVec 4) (s : State), s.rst = false → s.pedals.rxBytes = [] →
    ((s.pedals.pedal p).motion ≠ .fault →
      let arrived : Option Move → Link → Prop := fun waiting link =>
        ∃ s', exec (.arrived t p depth) s = .next s' ∧
          s'.pedals.pedal p = { s.pedals.pedal p with
            depth := depth.toNat, motion := .atRest, travel := none, waiting := waiting } ∧
          (∀ q, q ≠ p → s'.pedals.pedal q = s.pedals.pedal q) ∧
          (p ≠ .sostenuto → s'.pedals.sost = s.pedals.sost ∧ s.raisedNone s') ∧
          (p = .sostenuto → 8 ≤ depth.toNat →
            (∀ k, k ∈ s'.pedals.sost ↔ (s.key k).state = .firing ∨ (s.key k).state = .holding) ∧
            s.raisedExactly s' [(.sostenutoCapture, 3, toWord s'.pedals.sost.length)]) ∧
          (p = .sostenuto → depth.toNat < 8 → s'.pedals.sost = [] ∧
            (s.pedals.sost ≠ [] → s.raisedExactly s' [(.sostenutoClear, 3, toWord s.pedals.sost.length)]) ∧
            (s.pedals.sost = [] → s.raisedNone s')) ∧
          s' = { s.withBook s' with
            pedals := { s.pedals with
              recs := s'.pedals.recs, sost := s'.pedals.sost, link := link, rxBytes := [], rxEnd := s.at t } }
      let waiting := (s.pedals.pedal p).waiting
      (s.awaitsSettling = false ∨ depth.toNat = 0 ∨ waiting ≠ none ∨ s.pedals.inFlight p = true →
        arrived waiting s.pedals.link) ∧
      (s.awaitsSettling = true → depth.toNat ≠ 0 → waiting = none → s.pedals.inFlight p = false →
        (s.pedals.link ≠ .idle → arrived (some { depth := 0, due := s.at t }) s.pedals.link) ∧
        (s.pedals.link = .idle → choosePedal s.pedals = none →
          arrived none (.sending { pedal := p, depth := 0 } (s.at t) none)))) ∧
    ((s.pedals.pedal p).motion = .fault →
      ∃ s', exec (.arrived t p depth) s = .next s' ∧ s.raisedNone s' ∧
        s' = { s.withBook s' with pedals := { s.pedals with rxBytes := [], rxEnd := s.at t } })

/-- The receiver (R137): a byte joins the partial frame; a bad stop bit drops the part and the byte; a gap of more than 200 us
drops the part. A frame that fails the check, kind, pedal or depth test, and an ACK or NAK that matches no frame in flight,
change no pedal record and no link state (R137, R140). -/
def Obligations.receiver_assembles_drops_and_ignores : Prop :=
  ∀ (t : Instant) (s : State), s.rst = false →
    let received : State → List Byte → Prop := fun s' bytes =>
      s' = { s.withBook s' with pedals := { s.pedals with rxBytes := bytes, rxEnd := s.at t } }
    (∀ b, s.pedals.rxBytes.length < 2 → s.at t - 40 ≤ s.pedals.rxEnd + 200 →
      ∃ s', exec (.plrxByteReceived t b) s = .next s' ∧ received s' (s.pedals.rxBytes ++ [b])) ∧
    (∀ b, s.pedals.rxEnd + 200 < s.at t - 40 →
      ∃ s', exec (.plrxByteReceived t b) s = .next s' ∧ received s' [b]) ∧
    (∃ s', exec (.plrxFramingError t) s = .next s' ∧ received s' []) ∧
    (s.pedals.rxEnd + 200 < s.at t →
      ∃ s', exec (.plrxGapTimeout t) s = .next s' ∧
        s' = { s.withBook s' with pedals := { s.pedals with rxBytes := [] } }) ∧
    (s.pedals.rxBytes = [] →
      (∀ b1 b2 b3, parseFrame b1 b2 b3 = none →
        ∃ s', exec (.invalidFrame t b1 b2 b3) s = .next s' ∧ received s' []) ∧
      (∀ (p : Pedal) (depth : BitVec 4), (∀ e, s.pedals.link ≠ .awaiting { pedal := p, depth := depth.toNat } e) →
        (∃ s', exec (.ack t p depth) s = .next s' ∧ received s' []) ∧
        (∃ s', exec (.nak t p depth) s = .next s' ∧ received s' []) ∧
        (∀ b1 b2 b3, parseFrame b1 b2 b3 = some (.ack, p, depth.toNat) ∨
            parseFrame b1 b2 b3 = some (.nak, p, depth.toNat) →
          ∃ s', exec (.invalidFrame t b1 b2 b3) s = .next s' ∧ received s' [])))

/-- Byte 1 of a frame holds the kind in bits 7 to 4 and the pedal in bits 3 to 0, with the codes MOVE 1, ACK 2, NAK 3 and
ARRIVED 4; byte 2 holds the depth, byte 3 the check (R185). Every frame of the unit is read back as it was made, and a frame of
another kind, or of pedal 0 or 4 to 15, is not taken. -/
def Obligations.link_frames_are_read_as_they_are_made : Prop :=
  (∀ (k : FrameKind) (p : Pedal) (depth : Nat), depth ≤ 15 →
    ∃ b1 b2, frameBytes k p depth = [b1, b2, checkByte b1 b2] ∧ b2.toNat = depth ∧
      b1.toNat = 16 * (match k with
        | .move => 1
        | .ack => 2
        | .nak => 3
        | .arrived => 4) + (match p with
        | .damper => 1
        | .soft => 2
        | .sostenuto => 3) ∧
      (k ≠ .move → parseFrame b1 b2 (checkByte b1 b2) = some (k, p, depth))) ∧
  (∀ b1 b2 b3 : Byte, b1.toNat / 16 ≠ 2 → b1.toNat / 16 ≠ 3 → b1.toNat / 16 ≠ 4 → parseFrame b1 b2 b3 = none) ∧
  (∀ b1 b2 b3 : Byte, b1.toNat % 16 = 0 ∨ 4 ≤ b1.toNat % 16 → parseFrame b1 b2 b3 = none)

/-! ## Reports, status, pins -/

/-- The Report Writer asks for the port with the next word of the record in progress at its place in the report ring; words 0 to
2 are written and counted; word 3 commits the record: class, write index, no record in progress, the queue taken up, NTC_N (R177,
R180, R182); a word whose record was abandoned is written and counts for nothing (R178). The queue taken up (R180): its oldest
record becomes the record in progress; at a full ring it is dropped with reports-lost set, and so is every next one. A record
raised joins the queue, which is taken up at once; with no room it is dropped and reports-lost set; raised while the Report
Writer is dormant it leaves no trace (R179). -/
def Obligations.report_words_are_written_and_committed : Prop :=
  (∀ (t : Instant) (a : Nat) (w : Word) (p : InProgress) (ring : ReportRing) (s : State), s.rst = false →
    s.arb.waiting = none → s.report.current = some p → s.report.copies = some ring →
    s.report.request =
      some (.reportWord (ring.base + 8 * s.report.wr + 2 * p.written) (recordWord p.record p.written) true) ∧
    (s.arb.owner = some (.reportWord a w true) → p.written < 3 →
      ∃ s', exec (.reportWordWrite t) s = .next s' ∧ s'.arb.owner = none ∧
        s' = { s.withBook s' with
          mem := writeWord s.mem a w
          report := { s.report with current := some { p with written := p.written + 1 } } }) ∧
    (s.arb.owner = some (.reportWord a w true) → 3 ≤ p.written →
      ∃ s', exec (.reportWordWrite t) s = .next s' ∧ s'.arb.owner = none ∧ s'.ntc = s'.noticeDue ∧
        s' = { s.withBook s' with
          mem := writeWord s.mem a w
          report := Report.takeUp { s.report with
            classes := s.report.classes.set (Fin.ofNat 256 s.report.wr) (some (kindClass p.record.kind))
            wr := (s.report.wr + 1) % ring.size
            current := none } }) ∧
    (s.arb.owner = some (.reportWord a w false) →
      ∃ s', exec (.reportWordWrite t) s = .next s' ∧ s'.arb.owner = none ∧ s.raisedNone s' ∧
        s' = { s.withBook s' with mem := writeWord s.mem a w })) ∧
  (∀ (r : Report) (ring : ReportRing), r.copies = some ring → r.current = none →
    (r.queue = [] → r.takeUp = r) ∧
    (∀ x rest, r.queue = x :: rest →
      ((r.wr + 1) % ring.size ≠ r.readIndex →
        r.takeUp = { r with queue := rest, current := some { record := x, written := 0 } }) ∧
      ((r.wr + 1) % ring.size = r.readIndex → r.takeUp = { r with queue := [], lost := true }))) ∧
  (∀ (kind : ReportKind) (subject detail : Word) (ring : ReportRing) (s : State), s.report.copies = some ring →
    s.report.wr < ring.size → s.report.readIndex < ring.size →
    let s' := raise kind subject detail s
    let x : Record := { kind := kind, tag := s.track.lastTag, subject := subject, detail := detail }
    let room := (s.report.wr + ring.size - s.report.readIndex) % ring.size + s.report.queue.length +
      (if s.report.current.isSome then 1 else 0) < ring.size - 1
    s' = s.withBook s' ∧
    (s.report.active = false → s'.report = s.report) ∧
    (s.report.active = true → room →
      (s.report.current.isSome → s'.report = { s.report with queue := s.report.queue ++ [x] }) ∧
      (s.report.current = none → s'.report = Report.takeUp { s.report with queue := s.report.queue ++ [x] })) ∧
    (s.report.active = true → ¬ room → s'.report = { s.report with lost := true } ∧
      (s.report.lost = false → offFlags ∈ s'.updates)))

/-- A status word's write completes with the value taken at its grant (R183, R166). With the port free and no part request but
the Status Writer's, the first word of the update list leaves it with the value it mirrors at that instant, and is written.
Grant and completion fall in one row by the model's choice (log 5), and that a RESULT is no longer pending from its grant is the
model's reading of R183 and R170 (log 23). -/
def Obligations.status_words_are_granted_and_written : Prop :=
  ∀ (t : Instant) (s : State), s.rst = false → s.arb.waiting = none →
    (∀ (off : Nat) (w : Word), s.arb.owner = some (.statusWord off w) →
      ∃ s', exec (.statusWordWrite t) s = .next s' ∧ s'.arb.owner = none ∧
        s' = { s.withBook s' with mem := writeWord s.mem (s.pageBase + off) w }) ∧
    (∀ (off : Nat) (rest : List Nat), s.arb.owner = none → s.ring.request = none → s.setupRequest = none →
      s.report.request = none → s.updates = off :: rest →
      ∃ s', exec (.statusWordWrite t) s = .next s' ∧ s'.arb.owner = none ∧ s'.updates = rest ∧
        s'.shadow.result = (if off = 0x004 then none else s.shadow.result) ∧
        s' = { s.withBook s' with mem := writeWord s.mem (s.pageBase + off) (s.statusValue off) })

/-- A change of INH_N is taken (R121): the flag follows it, INHIBIT is raised outside IDLE only, no key record changes. RST_N
asserted, with no cycle on the port, brings every block to its pin-reset values; its release samples straps and INH_N, starts
timers and steps, and puts every status word on the update list (R3, R161, R162, R183, R101, R122, R125). What is kept across
it is the model's reading (log 15). -/
def Obligations.pins_inhibit_and_reset : Prop :=
  ∀ (t : Instant) (s : State),
    (∀ b : Bool, s.rst = false → s.inh ≠ b →
      ∃ s', exec (.inhNChange t b) s = .next s' ∧
        (s.clock.state ≠ .idle → s.raised s' .inhibit 0 (if b then 1 else 0)) ∧
        (s.clock.state = .idle → s.raisedNone s') ∧
        s' = { s.withBook s' with inh := b }) ∧
    (s.rst = false → s.arb.waiting = none → s.shadow.held = none →
      exec (.rstNAssert t) s = .next
        { now := s.at t, pending := s.pending, mem := s.mem, spb := s.spb, pd := s.pd, rst := true }) ∧
    (∀ (straps : BitVec 4) (b : Bool), s.rst = true →
      exec (.rstNRelease t straps b) s = .next
        { now := s.at t, pending := s.pending, mem := s.mem, pd := s.pd
          rst := false, spb := straps, inh := b, kdNext := s.at t + 50
          keys := Bank.replicate 88 { timer := some (s.at t + 50000) }
          heat := { next := s.at t + 1000 }
          updates := evens 0x010 0x07E ++ evens 0x600 0x6AE })

/-! ## Invariants -/

/-- Every invariant below holds right after reset. -/
def Obligations.invariants_hold_at_reset : Prop :=
  State.reset.memOk ∧ State.reset.outputsOk ∧ scheduleOk State.reset.sched ∧ State.reset.sostenutoOk ∧
    State.reset.firingOk ∧ State.reset.locksOk

/-- Every step keeps the memory in its canonical form: addresses rising, no cell equal to what an unlisted address reads as. The
form is the model's own representation of memory (log 6), which the spec does not speak of. -/
def Obligations.every_step_keeps_memory_canonical : Prop :=
  ∀ s s' : State, s.memOk → step s = .next s' → s'.memOk

/-- Every step leaves NTC_N asserted exactly when the part is outside IDLE with an unread record of an enabled class, and
PWAIT_N exactly while a processor cycle waits or is held (R182, R166, R169). -/
def Obligations.every_step_keeps_the_outputs_exact : Prop :=
  ∀ s s' : State, s.outputsOk → step s = .next s' → s'.outputsOk

/-- Every step keeps the schedule in order of due instant, at most 128 entries, at most one MOVE for a pedal (R85). -/
def Obligations.every_step_keeps_the_schedule_in_order : Prop :=
  ∀ s s' : State, scheduleOk s.sched → step s = .next s' → scheduleOk s'.sched

/-- Every step keeps the sostenuto set empty whenever the sostenuto pedal is in FAULT or at a depth below 8 (R145). -/
def Obligations.every_step_keeps_the_sostenuto_rule : Prop :=
  ∀ s s' : State, s.sostenutoOk → step s = .next s' → s'.sostenutoOk

/-- Every step keeps the firing count equal to the number of keys that are FIRING (R93). -/
def Obligations.every_step_keeps_the_firing_count : Prop :=
  ∀ s s' : State, s.firingOk → step s = .next s' → s'.firingOk

/-- Every step keeps a key LOCKED exactly when its applied SOURCE is OFF or DIRECT (R114, R116, R117). -/
def Obligations.every_step_keeps_locks_with_sources : Prop :=
  ∀ s s' : State, s.locksOk → step s = .next s' → s'.locksOk
end

