-- ==== Sys2Proof/Laws/Bank.lean ====
section
/-! SUPPORT. Reading a bank after an update of it. -/

namespace Sys2Proof

namespace Bank

variable {α β : Type} {n : Nat}

theorem get_set (b : Bank α n) (i j : Fin n) (x : α) : (b.set i x).get j = if j = i then x else b.get j := by
  unfold get set
  rw [List.getElem_set]
  by_cases h : j = i
  · subst h; simp
  · rw [if_neg h, if_neg (fun e => h (Fin.ext e.symm))]

@[simp] theorem get_set_same (b : Bank α n) (i : Fin n) (x : α) : (b.set i x).get i = x := by rw [get_set, if_pos rfl]

theorem get_set_other (b : Bank α n) (i j : Fin n) (x : α) (h : j ≠ i) : (b.set i x).get j = b.get j := by
  rw [get_set, if_neg h]

theorem get_modify (b : Bank α n) (i j : Fin n) (f : α → α) :
    (b.modify i f).get j = if j = i then f (b.get i) else b.get j := get_set b i j _

@[simp] theorem get_modify_same (b : Bank α n) (i : Fin n) (f : α → α) : (b.modify i f).get i = f (b.get i) :=
  get_set_same b i _

theorem get_modify_other (b : Bank α n) (i j : Fin n) (f : α → α) (h : j ≠ i) : (b.modify i f).get j = b.get j :=
  get_set_other b i j _ h

@[simp] theorem get_replicate (x : α) (i : Fin n) : (replicate n x).get i = x := by simp [get, replicate]

@[simp] theorem get_tabulate (f : Nat → α) (i : Fin n) : (tabulate n f).get i = f i.val := by simp [get, tabulate]

@[simp] theorem get_map (f : α → β) (b : Bank α n) (i : Fin n) : (b.map f).get i = f (b.get i) := by simp [get, map]

/-- Two banks that read alike are one. -/
theorem ext_get {a b : Bank α n} (h : ∀ i, a.get i = b.get i) : a = b := by
  cases a with
  | mk da la =>
    cases b with
    | mk db lb =>
      have hd : da = db :=
        List.ext_getElem (by rw [la, lb]) (fun i h1 _ => h ⟨i, la ▸ h1⟩)
      subst hd
      rfl

/-- Writing back what stands there changes nothing. -/
@[simp] theorem set_get (b : Bank α n) (i : Fin n) : b.set i (b.get i) = b := by
  apply ext_get
  intro j
  rw [get_set]
  split
  · rename_i h; rw [h]
  · rfl

/-- Two writes at one index: the second stands. -/
@[simp] theorem set_set (b : Bank α n) (i : Fin n) (x y : α) : (b.set i x).set i y = b.set i y := by
  apply ext_get
  intro j
  rw [get_set, get_set, get_set]
  split <;> rfl

/-- A modification is a write of what it makes of the thing that stands there. -/
theorem modify_eq (b : Bank α n) (i : Fin n) (f : α → α) : b.modify i f = b.set i (f (b.get i)) := rfl

/-- Every thing passes a test exactly when each index does. -/
theorem all_data (b : Bank α n) (p : α → Bool) : b.data.all p = true ↔ ∀ i, p (b.get i) = true := by
  constructor
  · intro h i
    exact List.all_eq_true.mp h _ (List.getElem_mem _)
  · intro h
    rw [List.all_eq_true]
    intro x hx
    obtain ⟨i, hi, e⟩ := List.getElem_of_mem hx
    have := h ⟨i, b.len ▸ hi⟩
    unfold get at this
    rw [e] at this
    exact this

end Bank

namespace Machine

/-- The shadow's word after a put of one of its 704 words. -/
theorem Shadow.word_put (sh : Shadow) (off off' : Nat) (w : Word) (h : off / 2 < 704) (h' : off' / 2 < 704) :
    (sh.put off w).word off' = if off' / 2 = off / 2 then w else sh.word off' := by
  unfold Shadow.put Shadow.word
  dsimp only
  rw [Bank.get_set]
  by_cases e : off' / 2 = off / 2
  · rw [if_pos e, if_pos (by rw [e])]
  · rw [if_neg e, if_neg]
    intro c
    have := congrArg Fin.val c
    simp only [Fin.val_ofNat] at this
    omega

@[simp] theorem mem_allKeys (k : Key) : k ∈ allKeys := by
  unfold allKeys
  rw [List.mem_map]
  exact ⟨k.val, by simp, by ext; simp⟩

@[simp] theorem mem_allPedals (p : Pedal) : p ∈ allPedals := by cases p <;> decide

theorem pedalIndex_inj {p q : Pedal} (h : pedalIndex p = pedalIndex q) : p = q := by
  cases p <;> cases q <;> first | rfl | (exact absurd h (by decide))

theorem allKeys_nodup : allKeys.Nodup := by decide

end Machine

end Sys2Proof
end

