-- ==== Sys2Proof/Laws/State.lean ====
section
/-! SUPPORT. What each named operation of Machine/Ops.lean changes and keeps: every lemma is true by rfl. -/

namespace Sys2Proof.Machine

@[simp] theorem touch_keeps (off : Nat) (s : State) :
    (touch off s).now = s.now ∧ (touch off s).pending = s.pending ∧ (touch off s).rst = s.rst ∧ (touch off s).inh = s.inh ∧ (touch off s).ntc = s.ntc ∧ (touch off s).pwait = s.pwait ∧ (touch off s).spb = s.spb ∧ (touch off s).pd = s.pd ∧ (touch off s).kdNext = s.kdNext ∧ (touch off s).mem = s.mem ∧ (touch off s).arb = s.arb ∧ (touch off s).ring = s.ring ∧ (touch off s).track = s.track ∧ (touch off s).clock = s.clock ∧ (touch off s).expr = s.expr ∧ (touch off s).sched = s.sched ∧ (touch off s).fire = s.fire ∧ (touch off s).keys = s.keys ∧ (touch off s).heat = s.heat ∧ (touch off s).pedals = s.pedals ∧ (touch off s).cue = s.cue ∧ (touch off s).shadow = s.shadow ∧ (touch off s).report = s.report :=
  ⟨rfl, rfl, rfl, rfl, rfl, rfl, rfl, rfl, rfl, rfl, rfl, rfl, rfl, rfl, rfl, rfl, rfl, rfl, rfl, rfl, rfl, rfl, rfl⟩

@[simp] theorem advance_now (t : Instant) (s : State) :
    (advance t s).now = (max s.now t) := rfl
@[simp] theorem advance_clock (t : Instant) (s : State) :
    (advance t s).clock = ({ s.clock with exprCount := if s.clock.state = .playing then s.clock.exprCount + (max s.now t - s.now) else s.clock.exprCount }) := rfl
@[simp] theorem advance_keeps (t : Instant) (s : State) :
    (advance t s).pending = s.pending ∧ (advance t s).rst = s.rst ∧ (advance t s).inh = s.inh ∧ (advance t s).ntc = s.ntc ∧ (advance t s).pwait = s.pwait ∧ (advance t s).spb = s.spb ∧ (advance t s).pd = s.pd ∧ (advance t s).kdNext = s.kdNext ∧ (advance t s).mem = s.mem ∧ (advance t s).arb = s.arb ∧ (advance t s).ring = s.ring ∧ (advance t s).track = s.track ∧ (advance t s).expr = s.expr ∧ (advance t s).sched = s.sched ∧ (advance t s).fire = s.fire ∧ (advance t s).keys = s.keys ∧ (advance t s).heat = s.heat ∧ (advance t s).pedals = s.pedals ∧ (advance t s).cue = s.cue ∧ (advance t s).shadow = s.shadow ∧ (advance t s).report = s.report ∧ (advance t s).updates = s.updates :=
  ⟨rfl, rfl, rfl, rfl, rfl, rfl, rfl, rfl, rfl, rfl, rfl, rfl, rfl, rfl, rfl, rfl, rfl, rfl, rfl, rfl, rfl, rfl⟩

@[simp] theorem setReport_report (r : Report) (s : State) :
    (setReport r s).report = (r) := rfl
@[simp] theorem setReport_keeps (r : Report) (s : State) :
    (setReport r s).now = s.now ∧ (setReport r s).pending = s.pending ∧ (setReport r s).rst = s.rst ∧ (setReport r s).inh = s.inh ∧ (setReport r s).ntc = s.ntc ∧ (setReport r s).pwait = s.pwait ∧ (setReport r s).spb = s.spb ∧ (setReport r s).pd = s.pd ∧ (setReport r s).kdNext = s.kdNext ∧ (setReport r s).mem = s.mem ∧ (setReport r s).arb = s.arb ∧ (setReport r s).ring = s.ring ∧ (setReport r s).track = s.track ∧ (setReport r s).clock = s.clock ∧ (setReport r s).expr = s.expr ∧ (setReport r s).sched = s.sched ∧ (setReport r s).fire = s.fire ∧ (setReport r s).keys = s.keys ∧ (setReport r s).heat = s.heat ∧ (setReport r s).pedals = s.pedals ∧ (setReport r s).cue = s.cue ∧ (setReport r s).shadow = s.shadow :=
  ⟨rfl, rfl, rfl, rfl, rfl, rfl, rfl, rfl, rfl, rfl, rfl, rfl, rfl, rfl, rfl, rfl, rfl, rfl, rfl, rfl, rfl, rfl⟩

@[simp] theorem passWrite_mem (c : ProcCycle) (s : State) :
    (passWrite c s).mem = (writeLanes s.mem c.addr c.lanes c.data) := rfl
@[simp] theorem passWrite_keeps (c : ProcCycle) (s : State) :
    (passWrite c s).now = s.now ∧ (passWrite c s).pending = s.pending ∧ (passWrite c s).rst = s.rst ∧ (passWrite c s).inh = s.inh ∧ (passWrite c s).ntc = s.ntc ∧ (passWrite c s).pwait = s.pwait ∧ (passWrite c s).spb = s.spb ∧ (passWrite c s).pd = s.pd ∧ (passWrite c s).kdNext = s.kdNext ∧ (passWrite c s).arb = s.arb ∧ (passWrite c s).ring = s.ring ∧ (passWrite c s).track = s.track ∧ (passWrite c s).clock = s.clock ∧ (passWrite c s).expr = s.expr ∧ (passWrite c s).sched = s.sched ∧ (passWrite c s).fire = s.fire ∧ (passWrite c s).keys = s.keys ∧ (passWrite c s).heat = s.heat ∧ (passWrite c s).pedals = s.pedals ∧ (passWrite c s).cue = s.cue ∧ (passWrite c s).shadow = s.shadow ∧ (passWrite c s).report = s.report ∧ (passWrite c s).updates = s.updates :=
  ⟨rfl, rfl, rfl, rfl, rfl, rfl, rfl, rfl, rfl, rfl, rfl, rfl, rfl, rfl, rfl, rfl, rfl, rfl, rfl, rfl, rfl, rfl, rfl⟩

@[simp] theorem partWrite_mem (a : Nat) (w : Word) (s : State) :
    (partWrite a w s).mem = (writeWord s.mem a w) := rfl
@[simp] theorem partWrite_keeps (a : Nat) (w : Word) (s : State) :
    (partWrite a w s).now = s.now ∧ (partWrite a w s).pending = s.pending ∧ (partWrite a w s).rst = s.rst ∧ (partWrite a w s).inh = s.inh ∧ (partWrite a w s).ntc = s.ntc ∧ (partWrite a w s).pwait = s.pwait ∧ (partWrite a w s).spb = s.spb ∧ (partWrite a w s).pd = s.pd ∧ (partWrite a w s).kdNext = s.kdNext ∧ (partWrite a w s).arb = s.arb ∧ (partWrite a w s).ring = s.ring ∧ (partWrite a w s).track = s.track ∧ (partWrite a w s).clock = s.clock ∧ (partWrite a w s).expr = s.expr ∧ (partWrite a w s).sched = s.sched ∧ (partWrite a w s).fire = s.fire ∧ (partWrite a w s).keys = s.keys ∧ (partWrite a w s).heat = s.heat ∧ (partWrite a w s).pedals = s.pedals ∧ (partWrite a w s).cue = s.cue ∧ (partWrite a w s).shadow = s.shadow ∧ (partWrite a w s).report = s.report ∧ (partWrite a w s).updates = s.updates :=
  ⟨rfl, rfl, rfl, rfl, rfl, rfl, rfl, rfl, rfl, rfl, rfl, rfl, rfl, rfl, rfl, rfl, rfl, rfl, rfl, rfl, rfl, rfl, rfl⟩

@[simp] theorem setOwner_arb (o : Option Access) (s : State) :
    (setOwner o s).arb = ({ s.arb with owner := o }) := rfl
@[simp] theorem setOwner_keeps (o : Option Access) (s : State) :
    (setOwner o s).now = s.now ∧ (setOwner o s).pending = s.pending ∧ (setOwner o s).rst = s.rst ∧ (setOwner o s).inh = s.inh ∧ (setOwner o s).ntc = s.ntc ∧ (setOwner o s).pwait = s.pwait ∧ (setOwner o s).spb = s.spb ∧ (setOwner o s).pd = s.pd ∧ (setOwner o s).kdNext = s.kdNext ∧ (setOwner o s).mem = s.mem ∧ (setOwner o s).ring = s.ring ∧ (setOwner o s).track = s.track ∧ (setOwner o s).clock = s.clock ∧ (setOwner o s).expr = s.expr ∧ (setOwner o s).sched = s.sched ∧ (setOwner o s).fire = s.fire ∧ (setOwner o s).keys = s.keys ∧ (setOwner o s).heat = s.heat ∧ (setOwner o s).pedals = s.pedals ∧ (setOwner o s).cue = s.cue ∧ (setOwner o s).shadow = s.shadow ∧ (setOwner o s).report = s.report ∧ (setOwner o s).updates = s.updates :=
  ⟨rfl, rfl, rfl, rfl, rfl, rfl, rfl, rfl, rfl, rfl, rfl, rfl, rfl, rfl, rfl, rfl, rfl, rfl, rfl, rfl, rfl, rfl, rfl⟩

@[simp] theorem setWaitingCycle_arb (c : Option ProcCycle) (s : State) :
    (setWaitingCycle c s).arb = ({ s.arb with waiting := c }) := rfl
@[simp] theorem setWaitingCycle_keeps (c : Option ProcCycle) (s : State) :
    (setWaitingCycle c s).now = s.now ∧ (setWaitingCycle c s).pending = s.pending ∧ (setWaitingCycle c s).rst = s.rst ∧ (setWaitingCycle c s).inh = s.inh ∧ (setWaitingCycle c s).ntc = s.ntc ∧ (setWaitingCycle c s).pwait = s.pwait ∧ (setWaitingCycle c s).spb = s.spb ∧ (setWaitingCycle c s).pd = s.pd ∧ (setWaitingCycle c s).kdNext = s.kdNext ∧ (setWaitingCycle c s).mem = s.mem ∧ (setWaitingCycle c s).ring = s.ring ∧ (setWaitingCycle c s).track = s.track ∧ (setWaitingCycle c s).clock = s.clock ∧ (setWaitingCycle c s).expr = s.expr ∧ (setWaitingCycle c s).sched = s.sched ∧ (setWaitingCycle c s).fire = s.fire ∧ (setWaitingCycle c s).keys = s.keys ∧ (setWaitingCycle c s).heat = s.heat ∧ (setWaitingCycle c s).pedals = s.pedals ∧ (setWaitingCycle c s).cue = s.cue ∧ (setWaitingCycle c s).shadow = s.shadow ∧ (setWaitingCycle c s).report = s.report ∧ (setWaitingCycle c s).updates = s.updates :=
  ⟨rfl, rfl, rfl, rfl, rfl, rfl, rfl, rfl, rfl, rfl, rfl, rfl, rfl, rfl, rfl, rfl, rfl, rfl, rfl, rfl, rfl, rfl, rfl⟩

@[simp] theorem setPd_pd (w : Word) (s : State) :
    (setPd w s).pd = (w) := rfl
@[simp] theorem setPd_keeps (w : Word) (s : State) :
    (setPd w s).now = s.now ∧ (setPd w s).pending = s.pending ∧ (setPd w s).rst = s.rst ∧ (setPd w s).inh = s.inh ∧ (setPd w s).ntc = s.ntc ∧ (setPd w s).pwait = s.pwait ∧ (setPd w s).spb = s.spb ∧ (setPd w s).kdNext = s.kdNext ∧ (setPd w s).mem = s.mem ∧ (setPd w s).arb = s.arb ∧ (setPd w s).ring = s.ring ∧ (setPd w s).track = s.track ∧ (setPd w s).clock = s.clock ∧ (setPd w s).expr = s.expr ∧ (setPd w s).sched = s.sched ∧ (setPd w s).fire = s.fire ∧ (setPd w s).keys = s.keys ∧ (setPd w s).heat = s.heat ∧ (setPd w s).pedals = s.pedals ∧ (setPd w s).cue = s.cue ∧ (setPd w s).shadow = s.shadow ∧ (setPd w s).report = s.report ∧ (setPd w s).updates = s.updates :=
  ⟨rfl, rfl, rfl, rfl, rfl, rfl, rfl, rfl, rfl, rfl, rfl, rfl, rfl, rfl, rfl, rfl, rfl, rfl, rfl, rfl, rfl, rfl, rfl⟩

@[simp] theorem setPlay_clock (st : Playback) (c : Cause) (s : State) :
    (setPlay st c s).clock = ({ s.clock with state := st, cause := c, exprCount := s.clock.countOn st, exprOwed := s.clock.owedOn st }) := rfl
@[simp] theorem setPlay_keeps (st : Playback) (c : Cause) (s : State) :
    (setPlay st c s).now = s.now ∧ (setPlay st c s).pending = s.pending ∧ (setPlay st c s).rst = s.rst ∧ (setPlay st c s).inh = s.inh ∧ (setPlay st c s).ntc = s.ntc ∧ (setPlay st c s).pwait = s.pwait ∧ (setPlay st c s).spb = s.spb ∧ (setPlay st c s).pd = s.pd ∧ (setPlay st c s).kdNext = s.kdNext ∧ (setPlay st c s).mem = s.mem ∧ (setPlay st c s).arb = s.arb ∧ (setPlay st c s).ring = s.ring ∧ (setPlay st c s).track = s.track ∧ (setPlay st c s).expr = s.expr ∧ (setPlay st c s).sched = s.sched ∧ (setPlay st c s).fire = s.fire ∧ (setPlay st c s).keys = s.keys ∧ (setPlay st c s).heat = s.heat ∧ (setPlay st c s).pedals = s.pedals ∧ (setPlay st c s).cue = s.cue ∧ (setPlay st c s).shadow = s.shadow ∧ (setPlay st c s).report = s.report :=
  ⟨rfl, rfl, rfl, rfl, rfl, rfl, rfl, rfl, rfl, rfl, rfl, rfl, rfl, rfl, rfl, rfl, rfl, rfl, rfl, rfl, rfl, rfl⟩

@[simp] theorem setExpected_clock (tag : Word) (s : State) :
    (setExpected tag s).clock = ({ s.clock with expected := tag }) := rfl
@[simp] theorem setExpected_keeps (tag : Word) (s : State) :
    (setExpected tag s).now = s.now ∧ (setExpected tag s).pending = s.pending ∧ (setExpected tag s).rst = s.rst ∧ (setExpected tag s).inh = s.inh ∧ (setExpected tag s).ntc = s.ntc ∧ (setExpected tag s).pwait = s.pwait ∧ (setExpected tag s).spb = s.spb ∧ (setExpected tag s).pd = s.pd ∧ (setExpected tag s).kdNext = s.kdNext ∧ (setExpected tag s).mem = s.mem ∧ (setExpected tag s).arb = s.arb ∧ (setExpected tag s).ring = s.ring ∧ (setExpected tag s).track = s.track ∧ (setExpected tag s).expr = s.expr ∧ (setExpected tag s).sched = s.sched ∧ (setExpected tag s).fire = s.fire ∧ (setExpected tag s).keys = s.keys ∧ (setExpected tag s).heat = s.heat ∧ (setExpected tag s).pedals = s.pedals ∧ (setExpected tag s).cue = s.cue ∧ (setExpected tag s).shadow = s.shadow ∧ (setExpected tag s).report = s.report :=
  ⟨rfl, rfl, rfl, rfl, rfl, rfl, rfl, rfl, rfl, rfl, rfl, rfl, rfl, rfl, rfl, rfl, rfl, rfl, rfl, rfl, rfl, rfl⟩

@[simp] theorem updClock_clock (f : Clock → Clock) (s : State) :
    (updClock f s).clock = ({ f s.clock with state := s.clock.state, cause := s.clock.cause, expected := s.clock.expected }) := rfl
@[simp] theorem updClock_keeps (f : Clock → Clock) (s : State) :
    (updClock f s).now = s.now ∧ (updClock f s).pending = s.pending ∧ (updClock f s).rst = s.rst ∧ (updClock f s).inh = s.inh ∧ (updClock f s).ntc = s.ntc ∧ (updClock f s).pwait = s.pwait ∧ (updClock f s).spb = s.spb ∧ (updClock f s).pd = s.pd ∧ (updClock f s).kdNext = s.kdNext ∧ (updClock f s).mem = s.mem ∧ (updClock f s).arb = s.arb ∧ (updClock f s).ring = s.ring ∧ (updClock f s).track = s.track ∧ (updClock f s).expr = s.expr ∧ (updClock f s).sched = s.sched ∧ (updClock f s).fire = s.fire ∧ (updClock f s).keys = s.keys ∧ (updClock f s).heat = s.heat ∧ (updClock f s).pedals = s.pedals ∧ (updClock f s).cue = s.cue ∧ (updClock f s).shadow = s.shadow ∧ (updClock f s).report = s.report ∧ (updClock f s).updates = s.updates :=
  ⟨rfl, rfl, rfl, rfl, rfl, rfl, rfl, rfl, rfl, rfl, rfl, rfl, rfl, rfl, rfl, rfl, rfl, rfl, rfl, rfl, rfl, rfl, rfl⟩

@[simp] theorem updSlot_ring (i : Fin 128) (f : Slot → Slot) (s : State) :
    (updSlot i f s).ring = ({ s.ring with slots := s.ring.slots.modify i f }) := rfl
@[simp] theorem updSlot_keeps (i : Fin 128) (f : Slot → Slot) (s : State) :
    (updSlot i f s).now = s.now ∧ (updSlot i f s).pending = s.pending ∧ (updSlot i f s).rst = s.rst ∧ (updSlot i f s).inh = s.inh ∧ (updSlot i f s).ntc = s.ntc ∧ (updSlot i f s).pwait = s.pwait ∧ (updSlot i f s).spb = s.spb ∧ (updSlot i f s).pd = s.pd ∧ (updSlot i f s).kdNext = s.kdNext ∧ (updSlot i f s).mem = s.mem ∧ (updSlot i f s).arb = s.arb ∧ (updSlot i f s).track = s.track ∧ (updSlot i f s).clock = s.clock ∧ (updSlot i f s).expr = s.expr ∧ (updSlot i f s).sched = s.sched ∧ (updSlot i f s).fire = s.fire ∧ (updSlot i f s).keys = s.keys ∧ (updSlot i f s).heat = s.heat ∧ (updSlot i f s).pedals = s.pedals ∧ (updSlot i f s).cue = s.cue ∧ (updSlot i f s).shadow = s.shadow ∧ (updSlot i f s).report = s.report ∧ (updSlot i f s).updates = s.updates :=
  ⟨rfl, rfl, rfl, rfl, rfl, rfl, rfl, rfl, rfl, rfl, rfl, rfl, rfl, rfl, rfl, rfl, rfl, rfl, rfl, rfl, rfl, rfl, rfl⟩

@[simp] theorem setFetch_ring (f : Option Fetch) (buffer : List Word) (s : State) :
    (setFetch f buffer s).ring = ({ s.ring with fetch := f, buffer := buffer }) := rfl
@[simp] theorem setFetch_keeps (f : Option Fetch) (buffer : List Word) (s : State) :
    (setFetch f buffer s).now = s.now ∧ (setFetch f buffer s).pending = s.pending ∧ (setFetch f buffer s).rst = s.rst ∧ (setFetch f buffer s).inh = s.inh ∧ (setFetch f buffer s).ntc = s.ntc ∧ (setFetch f buffer s).pwait = s.pwait ∧ (setFetch f buffer s).spb = s.spb ∧ (setFetch f buffer s).pd = s.pd ∧ (setFetch f buffer s).kdNext = s.kdNext ∧ (setFetch f buffer s).mem = s.mem ∧ (setFetch f buffer s).arb = s.arb ∧ (setFetch f buffer s).track = s.track ∧ (setFetch f buffer s).clock = s.clock ∧ (setFetch f buffer s).expr = s.expr ∧ (setFetch f buffer s).sched = s.sched ∧ (setFetch f buffer s).fire = s.fire ∧ (setFetch f buffer s).keys = s.keys ∧ (setFetch f buffer s).heat = s.heat ∧ (setFetch f buffer s).pedals = s.pedals ∧ (setFetch f buffer s).cue = s.cue ∧ (setFetch f buffer s).shadow = s.shadow ∧ (setFetch f buffer s).report = s.report ∧ (setFetch f buffer s).updates = s.updates :=
  ⟨rfl, rfl, rfl, rfl, rfl, rfl, rfl, rfl, rfl, rfl, rfl, rfl, rfl, rfl, rfl, rfl, rfl, rfl, rfl, rfl, rfl, rfl, rfl⟩

@[simp] theorem freeHead_ring (s : State) :
    (freeHead s).ring = ({ s.ring with slots := s.ring.slots.set s.ring.head {}, head := s.ring.after s.ring.head, fetch := none, buffer := [] }) := rfl
@[simp] theorem freeHead_keeps (s : State) :
    (freeHead s).now = s.now ∧ (freeHead s).pending = s.pending ∧ (freeHead s).rst = s.rst ∧ (freeHead s).inh = s.inh ∧ (freeHead s).ntc = s.ntc ∧ (freeHead s).pwait = s.pwait ∧ (freeHead s).spb = s.spb ∧ (freeHead s).pd = s.pd ∧ (freeHead s).kdNext = s.kdNext ∧ (freeHead s).mem = s.mem ∧ (freeHead s).arb = s.arb ∧ (freeHead s).track = s.track ∧ (freeHead s).clock = s.clock ∧ (freeHead s).expr = s.expr ∧ (freeHead s).sched = s.sched ∧ (freeHead s).fire = s.fire ∧ (freeHead s).keys = s.keys ∧ (freeHead s).heat = s.heat ∧ (freeHead s).pedals = s.pedals ∧ (freeHead s).cue = s.cue ∧ (freeHead s).shadow = s.shadow ∧ (freeHead s).report = s.report :=
  ⟨rfl, rfl, rfl, rfl, rfl, rfl, rfl, rfl, rfl, rfl, rfl, rfl, rfl, rfl, rfl, rfl, rfl, rfl, rfl, rfl, rfl, rfl⟩

@[simp] theorem ringResetTo_ring (base nslots : Nat) (s : State) :
    (ringResetTo base nslots s).ring = ({ base := base, nslots := nslots }) := rfl
@[simp] theorem ringResetTo_keeps (base nslots : Nat) (s : State) :
    (ringResetTo base nslots s).now = s.now ∧ (ringResetTo base nslots s).pending = s.pending ∧ (ringResetTo base nslots s).rst = s.rst ∧ (ringResetTo base nslots s).inh = s.inh ∧ (ringResetTo base nslots s).ntc = s.ntc ∧ (ringResetTo base nslots s).pwait = s.pwait ∧ (ringResetTo base nslots s).spb = s.spb ∧ (ringResetTo base nslots s).pd = s.pd ∧ (ringResetTo base nslots s).kdNext = s.kdNext ∧ (ringResetTo base nslots s).mem = s.mem ∧ (ringResetTo base nslots s).arb = s.arb ∧ (ringResetTo base nslots s).track = s.track ∧ (ringResetTo base nslots s).clock = s.clock ∧ (ringResetTo base nslots s).expr = s.expr ∧ (ringResetTo base nslots s).sched = s.sched ∧ (ringResetTo base nslots s).fire = s.fire ∧ (ringResetTo base nslots s).keys = s.keys ∧ (ringResetTo base nslots s).heat = s.heat ∧ (ringResetTo base nslots s).pedals = s.pedals ∧ (ringResetTo base nslots s).cue = s.cue ∧ (ringResetTo base nslots s).shadow = s.shadow ∧ (ringResetTo base nslots s).report = s.report :=
  ⟨rfl, rfl, rfl, rfl, rfl, rfl, rfl, rfl, rfl, rfl, rfl, rfl, rfl, rfl, rfl, rfl, rfl, rfl, rfl, rfl, rfl, rfl⟩

@[simp] theorem updTrack_track (f : Track → Track) (s : State) :
    (updTrack f s).track = ({ f s.track with lastTag := s.track.lastTag, shift := s.track.shift }) := rfl
@[simp] theorem updTrack_keeps (f : Track → Track) (s : State) :
    (updTrack f s).now = s.now ∧ (updTrack f s).pending = s.pending ∧ (updTrack f s).rst = s.rst ∧ (updTrack f s).inh = s.inh ∧ (updTrack f s).ntc = s.ntc ∧ (updTrack f s).pwait = s.pwait ∧ (updTrack f s).spb = s.spb ∧ (updTrack f s).pd = s.pd ∧ (updTrack f s).kdNext = s.kdNext ∧ (updTrack f s).mem = s.mem ∧ (updTrack f s).arb = s.arb ∧ (updTrack f s).ring = s.ring ∧ (updTrack f s).clock = s.clock ∧ (updTrack f s).expr = s.expr ∧ (updTrack f s).sched = s.sched ∧ (updTrack f s).fire = s.fire ∧ (updTrack f s).keys = s.keys ∧ (updTrack f s).heat = s.heat ∧ (updTrack f s).pedals = s.pedals ∧ (updTrack f s).cue = s.cue ∧ (updTrack f s).shadow = s.shadow ∧ (updTrack f s).report = s.report ∧ (updTrack f s).updates = s.updates :=
  ⟨rfl, rfl, rfl, rfl, rfl, rfl, rfl, rfl, rfl, rfl, rfl, rfl, rfl, rfl, rfl, rfl, rfl, rfl, rfl, rfl, rfl, rfl, rfl⟩

@[simp] theorem setLastTag_track (tag : Word) (s : State) :
    (setLastTag tag s).track = ({ s.track with lastTag := tag }) := rfl
@[simp] theorem setLastTag_keeps (tag : Word) (s : State) :
    (setLastTag tag s).now = s.now ∧ (setLastTag tag s).pending = s.pending ∧ (setLastTag tag s).rst = s.rst ∧ (setLastTag tag s).inh = s.inh ∧ (setLastTag tag s).ntc = s.ntc ∧ (setLastTag tag s).pwait = s.pwait ∧ (setLastTag tag s).spb = s.spb ∧ (setLastTag tag s).pd = s.pd ∧ (setLastTag tag s).kdNext = s.kdNext ∧ (setLastTag tag s).mem = s.mem ∧ (setLastTag tag s).arb = s.arb ∧ (setLastTag tag s).ring = s.ring ∧ (setLastTag tag s).clock = s.clock ∧ (setLastTag tag s).expr = s.expr ∧ (setLastTag tag s).sched = s.sched ∧ (setLastTag tag s).fire = s.fire ∧ (setLastTag tag s).keys = s.keys ∧ (setLastTag tag s).heat = s.heat ∧ (setLastTag tag s).pedals = s.pedals ∧ (setLastTag tag s).cue = s.cue ∧ (setLastTag tag s).shadow = s.shadow ∧ (setLastTag tag s).report = s.report :=
  ⟨rfl, rfl, rfl, rfl, rfl, rfl, rfl, rfl, rfl, rfl, rfl, rfl, rfl, rfl, rfl, rfl, rfl, rfl, rfl, rfl, rfl, rfl⟩

@[simp] theorem setShift_track (z : Int) (s : State) :
    (setShift z s).track = ({ s.track with shift := z }) := rfl
@[simp] theorem setShift_keeps (z : Int) (s : State) :
    (setShift z s).now = s.now ∧ (setShift z s).pending = s.pending ∧ (setShift z s).rst = s.rst ∧ (setShift z s).inh = s.inh ∧ (setShift z s).ntc = s.ntc ∧ (setShift z s).pwait = s.pwait ∧ (setShift z s).spb = s.spb ∧ (setShift z s).pd = s.pd ∧ (setShift z s).kdNext = s.kdNext ∧ (setShift z s).mem = s.mem ∧ (setShift z s).arb = s.arb ∧ (setShift z s).ring = s.ring ∧ (setShift z s).clock = s.clock ∧ (setShift z s).expr = s.expr ∧ (setShift z s).sched = s.sched ∧ (setShift z s).fire = s.fire ∧ (setShift z s).keys = s.keys ∧ (setShift z s).heat = s.heat ∧ (setShift z s).pedals = s.pedals ∧ (setShift z s).cue = s.cue ∧ (setShift z s).shadow = s.shadow ∧ (setShift z s).report = s.report :=
  ⟨rfl, rfl, rfl, rfl, rfl, rfl, rfl, rfl, rfl, rfl, rfl, rfl, rfl, rfl, rfl, rfl, rfl, rfl, rfl, rfl, rfl, rfl⟩

@[simp] theorem setSides_expr (bass treble : Side) (s : State) :
    (setSides bass treble s).expr = ({ s.expr with bass := bass, treble := treble }) := rfl
@[simp] theorem setSides_keeps (bass treble : Side) (s : State) :
    (setSides bass treble s).now = s.now ∧ (setSides bass treble s).pending = s.pending ∧ (setSides bass treble s).rst = s.rst ∧ (setSides bass treble s).inh = s.inh ∧ (setSides bass treble s).ntc = s.ntc ∧ (setSides bass treble s).pwait = s.pwait ∧ (setSides bass treble s).spb = s.spb ∧ (setSides bass treble s).pd = s.pd ∧ (setSides bass treble s).kdNext = s.kdNext ∧ (setSides bass treble s).mem = s.mem ∧ (setSides bass treble s).arb = s.arb ∧ (setSides bass treble s).ring = s.ring ∧ (setSides bass treble s).track = s.track ∧ (setSides bass treble s).clock = s.clock ∧ (setSides bass treble s).sched = s.sched ∧ (setSides bass treble s).fire = s.fire ∧ (setSides bass treble s).keys = s.keys ∧ (setSides bass treble s).heat = s.heat ∧ (setSides bass treble s).pedals = s.pedals ∧ (setSides bass treble s).cue = s.cue ∧ (setSides bass treble s).shadow = s.shadow ∧ (setSides bass treble s).report = s.report :=
  ⟨rfl, rfl, rfl, rfl, rfl, rfl, rfl, rfl, rfl, rfl, rfl, rfl, rfl, rfl, rfl, rfl, rfl, rfl, rfl, rfl, rfl, rfl⟩

@[simp] theorem setExprRest_expr (soft : Bool) (copies : Option ExprCopies) (sample : Option Sample) (s : State) :
    (setExprRest soft copies sample s).expr = ({ s.expr with soft := soft, copies := copies, sample := sample }) := rfl
@[simp] theorem setExprRest_keeps (soft : Bool) (copies : Option ExprCopies) (sample : Option Sample) (s : State) :
    (setExprRest soft copies sample s).now = s.now ∧ (setExprRest soft copies sample s).pending = s.pending ∧ (setExprRest soft copies sample s).rst = s.rst ∧ (setExprRest soft copies sample s).inh = s.inh ∧ (setExprRest soft copies sample s).ntc = s.ntc ∧ (setExprRest soft copies sample s).pwait = s.pwait ∧ (setExprRest soft copies sample s).spb = s.spb ∧ (setExprRest soft copies sample s).pd = s.pd ∧ (setExprRest soft copies sample s).kdNext = s.kdNext ∧ (setExprRest soft copies sample s).mem = s.mem ∧ (setExprRest soft copies sample s).arb = s.arb ∧ (setExprRest soft copies sample s).ring = s.ring ∧ (setExprRest soft copies sample s).track = s.track ∧ (setExprRest soft copies sample s).clock = s.clock ∧ (setExprRest soft copies sample s).sched = s.sched ∧ (setExprRest soft copies sample s).fire = s.fire ∧ (setExprRest soft copies sample s).keys = s.keys ∧ (setExprRest soft copies sample s).heat = s.heat ∧ (setExprRest soft copies sample s).pedals = s.pedals ∧ (setExprRest soft copies sample s).cue = s.cue ∧ (setExprRest soft copies sample s).shadow = s.shadow ∧ (setExprRest soft copies sample s).report = s.report ∧ (setExprRest soft copies sample s).updates = s.updates :=
  ⟨rfl, rfl, rfl, rfl, rfl, rfl, rfl, rfl, rfl, rfl, rfl, rfl, rfl, rfl, rfl, rfl, rfl, rfl, rfl, rfl, rfl, rfl, rfl⟩

@[simp] theorem setSched_sched (l : List Entry) (s : State) :
    (setSched l s).sched = (l) := rfl
@[simp] theorem setSched_keeps (l : List Entry) (s : State) :
    (setSched l s).now = s.now ∧ (setSched l s).pending = s.pending ∧ (setSched l s).rst = s.rst ∧ (setSched l s).inh = s.inh ∧ (setSched l s).ntc = s.ntc ∧ (setSched l s).pwait = s.pwait ∧ (setSched l s).spb = s.spb ∧ (setSched l s).pd = s.pd ∧ (setSched l s).kdNext = s.kdNext ∧ (setSched l s).mem = s.mem ∧ (setSched l s).arb = s.arb ∧ (setSched l s).ring = s.ring ∧ (setSched l s).track = s.track ∧ (setSched l s).clock = s.clock ∧ (setSched l s).expr = s.expr ∧ (setSched l s).fire = s.fire ∧ (setSched l s).keys = s.keys ∧ (setSched l s).heat = s.heat ∧ (setSched l s).pedals = s.pedals ∧ (setSched l s).cue = s.cue ∧ (setSched l s).shadow = s.shadow ∧ (setSched l s).report = s.report :=
  ⟨rfl, rfl, rfl, rfl, rfl, rfl, rfl, rfl, rfl, rfl, rfl, rfl, rfl, rfl, rfl, rfl, rfl, rfl, rfl, rfl, rfl, rfl⟩

@[simp] theorem setQueue_fire (q : List Waiting) (s : State) :
    (setQueue q s).fire = ({ s.fire with queue := q }) := rfl
@[simp] theorem setQueue_keeps (q : List Waiting) (s : State) :
    (setQueue q s).now = s.now ∧ (setQueue q s).pending = s.pending ∧ (setQueue q s).rst = s.rst ∧ (setQueue q s).inh = s.inh ∧ (setQueue q s).ntc = s.ntc ∧ (setQueue q s).pwait = s.pwait ∧ (setQueue q s).spb = s.spb ∧ (setQueue q s).pd = s.pd ∧ (setQueue q s).kdNext = s.kdNext ∧ (setQueue q s).mem = s.mem ∧ (setQueue q s).arb = s.arb ∧ (setQueue q s).ring = s.ring ∧ (setQueue q s).track = s.track ∧ (setQueue q s).clock = s.clock ∧ (setQueue q s).expr = s.expr ∧ (setQueue q s).sched = s.sched ∧ (setQueue q s).keys = s.keys ∧ (setQueue q s).heat = s.heat ∧ (setQueue q s).pedals = s.pedals ∧ (setQueue q s).cue = s.cue ∧ (setQueue q s).shadow = s.shadow ∧ (setQueue q s).report = s.report :=
  ⟨rfl, rfl, rfl, rfl, rfl, rfl, rfl, rfl, rfl, rfl, rfl, rfl, rfl, rfl, rfl, rfl, rfl, rfl, rfl, rfl, rfl, rfl⟩

@[simp] theorem setCount_fire (n : Nat) (s : State) :
    (setCount n s).fire = ({ s.fire with count := n }) := rfl
@[simp] theorem setCount_keeps (n : Nat) (s : State) :
    (setCount n s).now = s.now ∧ (setCount n s).pending = s.pending ∧ (setCount n s).rst = s.rst ∧ (setCount n s).inh = s.inh ∧ (setCount n s).ntc = s.ntc ∧ (setCount n s).pwait = s.pwait ∧ (setCount n s).spb = s.spb ∧ (setCount n s).pd = s.pd ∧ (setCount n s).kdNext = s.kdNext ∧ (setCount n s).mem = s.mem ∧ (setCount n s).arb = s.arb ∧ (setCount n s).ring = s.ring ∧ (setCount n s).track = s.track ∧ (setCount n s).clock = s.clock ∧ (setCount n s).expr = s.expr ∧ (setCount n s).sched = s.sched ∧ (setCount n s).keys = s.keys ∧ (setCount n s).heat = s.heat ∧ (setCount n s).pedals = s.pedals ∧ (setCount n s).cue = s.cue ∧ (setCount n s).shadow = s.shadow ∧ (setCount n s).report = s.report :=
  ⟨rfl, rfl, rfl, rfl, rfl, rfl, rfl, rfl, rfl, rfl, rfl, rfl, rfl, rfl, rfl, rfl, rfl, rfl, rfl, rfl, rfl, rfl⟩

@[simp] theorem updKey_keys (k : Key) (f : KeyRec → KeyRec) (s : State) :
    (updKey k f s).keys = (s.keys.modify k f) := rfl
@[simp] theorem updKey_keeps (k : Key) (f : KeyRec → KeyRec) (s : State) :
    (updKey k f s).now = s.now ∧ (updKey k f s).pending = s.pending ∧ (updKey k f s).rst = s.rst ∧ (updKey k f s).inh = s.inh ∧ (updKey k f s).ntc = s.ntc ∧ (updKey k f s).pwait = s.pwait ∧ (updKey k f s).spb = s.spb ∧ (updKey k f s).pd = s.pd ∧ (updKey k f s).kdNext = s.kdNext ∧ (updKey k f s).mem = s.mem ∧ (updKey k f s).arb = s.arb ∧ (updKey k f s).ring = s.ring ∧ (updKey k f s).track = s.track ∧ (updKey k f s).clock = s.clock ∧ (updKey k f s).expr = s.expr ∧ (updKey k f s).sched = s.sched ∧ (updKey k f s).fire = s.fire ∧ (updKey k f s).heat = s.heat ∧ (updKey k f s).pedals = s.pedals ∧ (updKey k f s).cue = s.cue ∧ (updKey k f s).shadow = s.shadow ∧ (updKey k f s).report = s.report :=
  ⟨rfl, rfl, rfl, rfl, rfl, rfl, rfl, rfl, rfl, rfl, rfl, rfl, rfl, rfl, rfl, rfl, rfl, rfl, rfl, rfl, rfl, rfl⟩

@[simp] theorem updPedal_pedals (p : Pedal) (f : PedalRec → PedalRec) (s : State) :
    (updPedal p f s).pedals = ({ s.pedals with recs := s.pedals.recs.modify (pedalIndex p) f }) := rfl
@[simp] theorem updPedal_keeps (p : Pedal) (f : PedalRec → PedalRec) (s : State) :
    (updPedal p f s).now = s.now ∧ (updPedal p f s).pending = s.pending ∧ (updPedal p f s).rst = s.rst ∧ (updPedal p f s).inh = s.inh ∧ (updPedal p f s).ntc = s.ntc ∧ (updPedal p f s).pwait = s.pwait ∧ (updPedal p f s).spb = s.spb ∧ (updPedal p f s).pd = s.pd ∧ (updPedal p f s).kdNext = s.kdNext ∧ (updPedal p f s).mem = s.mem ∧ (updPedal p f s).arb = s.arb ∧ (updPedal p f s).ring = s.ring ∧ (updPedal p f s).track = s.track ∧ (updPedal p f s).clock = s.clock ∧ (updPedal p f s).expr = s.expr ∧ (updPedal p f s).sched = s.sched ∧ (updPedal p f s).fire = s.fire ∧ (updPedal p f s).keys = s.keys ∧ (updPedal p f s).heat = s.heat ∧ (updPedal p f s).cue = s.cue ∧ (updPedal p f s).shadow = s.shadow ∧ (updPedal p f s).report = s.report :=
  ⟨rfl, rfl, rfl, rfl, rfl, rfl, rfl, rfl, rfl, rfl, rfl, rfl, rfl, rfl, rfl, rfl, rfl, rfl, rfl, rfl, rfl, rfl⟩

@[simp] theorem setLink_pedals (l : Link) (s : State) :
    (setLink l s).pedals = ({ s.pedals with link := l }) := rfl
@[simp] theorem setLink_keeps (l : Link) (s : State) :
    (setLink l s).now = s.now ∧ (setLink l s).pending = s.pending ∧ (setLink l s).rst = s.rst ∧ (setLink l s).inh = s.inh ∧ (setLink l s).ntc = s.ntc ∧ (setLink l s).pwait = s.pwait ∧ (setLink l s).spb = s.spb ∧ (setLink l s).pd = s.pd ∧ (setLink l s).kdNext = s.kdNext ∧ (setLink l s).mem = s.mem ∧ (setLink l s).arb = s.arb ∧ (setLink l s).ring = s.ring ∧ (setLink l s).track = s.track ∧ (setLink l s).clock = s.clock ∧ (setLink l s).expr = s.expr ∧ (setLink l s).sched = s.sched ∧ (setLink l s).fire = s.fire ∧ (setLink l s).keys = s.keys ∧ (setLink l s).heat = s.heat ∧ (setLink l s).cue = s.cue ∧ (setLink l s).shadow = s.shadow ∧ (setLink l s).report = s.report ∧ (setLink l s).updates = s.updates :=
  ⟨rfl, rfl, rfl, rfl, rfl, rfl, rfl, rfl, rfl, rfl, rfl, rfl, rfl, rfl, rfl, rfl, rfl, rfl, rfl, rfl, rfl, rfl, rfl⟩

@[simp] theorem setRx_pedals (bytes : List Byte) (endAt : Instant) (s : State) :
    (setRx bytes endAt s).pedals = ({ s.pedals with rxBytes := bytes, rxEnd := endAt }) := rfl
@[simp] theorem setRx_keeps (bytes : List Byte) (endAt : Instant) (s : State) :
    (setRx bytes endAt s).now = s.now ∧ (setRx bytes endAt s).pending = s.pending ∧ (setRx bytes endAt s).rst = s.rst ∧ (setRx bytes endAt s).inh = s.inh ∧ (setRx bytes endAt s).ntc = s.ntc ∧ (setRx bytes endAt s).pwait = s.pwait ∧ (setRx bytes endAt s).spb = s.spb ∧ (setRx bytes endAt s).pd = s.pd ∧ (setRx bytes endAt s).kdNext = s.kdNext ∧ (setRx bytes endAt s).mem = s.mem ∧ (setRx bytes endAt s).arb = s.arb ∧ (setRx bytes endAt s).ring = s.ring ∧ (setRx bytes endAt s).track = s.track ∧ (setRx bytes endAt s).clock = s.clock ∧ (setRx bytes endAt s).expr = s.expr ∧ (setRx bytes endAt s).sched = s.sched ∧ (setRx bytes endAt s).fire = s.fire ∧ (setRx bytes endAt s).keys = s.keys ∧ (setRx bytes endAt s).heat = s.heat ∧ (setRx bytes endAt s).cue = s.cue ∧ (setRx bytes endAt s).shadow = s.shadow ∧ (setRx bytes endAt s).report = s.report ∧ (setRx bytes endAt s).updates = s.updates :=
  ⟨rfl, rfl, rfl, rfl, rfl, rfl, rfl, rfl, rfl, rfl, rfl, rfl, rfl, rfl, rfl, rfl, rfl, rfl, rfl, rfl, rfl, rfl, rfl⟩

@[simp] theorem setPedalCopies_pedals (retries reply travel : Nat) (s : State) :
    (setPedalCopies retries reply travel s).pedals = ({ s.pedals with maxRetries := retries, replyTimeout := reply, travelLimit := travel }) := rfl
@[simp] theorem setPedalCopies_keeps (retries reply travel : Nat) (s : State) :
    (setPedalCopies retries reply travel s).now = s.now ∧ (setPedalCopies retries reply travel s).pending = s.pending ∧ (setPedalCopies retries reply travel s).rst = s.rst ∧ (setPedalCopies retries reply travel s).inh = s.inh ∧ (setPedalCopies retries reply travel s).ntc = s.ntc ∧ (setPedalCopies retries reply travel s).pwait = s.pwait ∧ (setPedalCopies retries reply travel s).spb = s.spb ∧ (setPedalCopies retries reply travel s).pd = s.pd ∧ (setPedalCopies retries reply travel s).kdNext = s.kdNext ∧ (setPedalCopies retries reply travel s).mem = s.mem ∧ (setPedalCopies retries reply travel s).arb = s.arb ∧ (setPedalCopies retries reply travel s).ring = s.ring ∧ (setPedalCopies retries reply travel s).track = s.track ∧ (setPedalCopies retries reply travel s).clock = s.clock ∧ (setPedalCopies retries reply travel s).expr = s.expr ∧ (setPedalCopies retries reply travel s).sched = s.sched ∧ (setPedalCopies retries reply travel s).fire = s.fire ∧ (setPedalCopies retries reply travel s).keys = s.keys ∧ (setPedalCopies retries reply travel s).heat = s.heat ∧ (setPedalCopies retries reply travel s).cue = s.cue ∧ (setPedalCopies retries reply travel s).shadow = s.shadow ∧ (setPedalCopies retries reply travel s).report = s.report ∧ (setPedalCopies retries reply travel s).updates = s.updates :=
  ⟨rfl, rfl, rfl, rfl, rfl, rfl, rfl, rfl, rfl, rfl, rfl, rfl, rfl, rfl, rfl, rfl, rfl, rfl, rfl, rfl, rfl, rfl, rfl⟩

@[simp] theorem setSost_pedals (l : List Key) (s : State) :
    (setSost l s).pedals = ({ s.pedals with sost := l }) := rfl
@[simp] theorem setSost_keeps (l : List Key) (s : State) :
    (setSost l s).now = s.now ∧ (setSost l s).pending = s.pending ∧ (setSost l s).rst = s.rst ∧ (setSost l s).inh = s.inh ∧ (setSost l s).ntc = s.ntc ∧ (setSost l s).pwait = s.pwait ∧ (setSost l s).spb = s.spb ∧ (setSost l s).pd = s.pd ∧ (setSost l s).kdNext = s.kdNext ∧ (setSost l s).mem = s.mem ∧ (setSost l s).arb = s.arb ∧ (setSost l s).ring = s.ring ∧ (setSost l s).track = s.track ∧ (setSost l s).clock = s.clock ∧ (setSost l s).expr = s.expr ∧ (setSost l s).sched = s.sched ∧ (setSost l s).fire = s.fire ∧ (setSost l s).keys = s.keys ∧ (setSost l s).heat = s.heat ∧ (setSost l s).cue = s.cue ∧ (setSost l s).shadow = s.shadow ∧ (setSost l s).report = s.report :=
  ⟨rfl, rfl, rfl, rfl, rfl, rfl, rfl, rfl, rfl, rfl, rfl, rfl, rfl, rfl, rfl, rfl, rfl, rfl, rfl, rfl, rfl, rfl⟩

@[simp] theorem setCueFlags_cue (a b armed : Bool) (s : State) :
    (setCueFlags a b armed s).cue = ({ s.cue with flagA := a, flagB := b, bArmed := armed }) := rfl
@[simp] theorem setCueFlags_keeps (a b armed : Bool) (s : State) :
    (setCueFlags a b armed s).now = s.now ∧ (setCueFlags a b armed s).pending = s.pending ∧ (setCueFlags a b armed s).rst = s.rst ∧ (setCueFlags a b armed s).inh = s.inh ∧ (setCueFlags a b armed s).ntc = s.ntc ∧ (setCueFlags a b armed s).pwait = s.pwait ∧ (setCueFlags a b armed s).spb = s.spb ∧ (setCueFlags a b armed s).pd = s.pd ∧ (setCueFlags a b armed s).kdNext = s.kdNext ∧ (setCueFlags a b armed s).mem = s.mem ∧ (setCueFlags a b armed s).arb = s.arb ∧ (setCueFlags a b armed s).ring = s.ring ∧ (setCueFlags a b armed s).track = s.track ∧ (setCueFlags a b armed s).clock = s.clock ∧ (setCueFlags a b armed s).expr = s.expr ∧ (setCueFlags a b armed s).sched = s.sched ∧ (setCueFlags a b armed s).fire = s.fire ∧ (setCueFlags a b armed s).keys = s.keys ∧ (setCueFlags a b armed s).heat = s.heat ∧ (setCueFlags a b armed s).pedals = s.pedals ∧ (setCueFlags a b armed s).shadow = s.shadow ∧ (setCueFlags a b armed s).report = s.report :=
  ⟨rfl, rfl, rfl, rfl, rfl, rfl, rfl, rfl, rfl, rfl, rfl, rfl, rfl, rfl, rfl, rfl, rfl, rfl, rfl, rfl, rfl, rfl⟩

@[simp] theorem setExempt_cue (b : Bool) (s : State) :
    (setExempt b s).cue = ({ s.cue with exempt := b }) := rfl
@[simp] theorem setExempt_keeps (b : Bool) (s : State) :
    (setExempt b s).now = s.now ∧ (setExempt b s).pending = s.pending ∧ (setExempt b s).rst = s.rst ∧ (setExempt b s).inh = s.inh ∧ (setExempt b s).ntc = s.ntc ∧ (setExempt b s).pwait = s.pwait ∧ (setExempt b s).spb = s.spb ∧ (setExempt b s).pd = s.pd ∧ (setExempt b s).kdNext = s.kdNext ∧ (setExempt b s).mem = s.mem ∧ (setExempt b s).arb = s.arb ∧ (setExempt b s).ring = s.ring ∧ (setExempt b s).track = s.track ∧ (setExempt b s).clock = s.clock ∧ (setExempt b s).expr = s.expr ∧ (setExempt b s).sched = s.sched ∧ (setExempt b s).fire = s.fire ∧ (setExempt b s).keys = s.keys ∧ (setExempt b s).heat = s.heat ∧ (setExempt b s).pedals = s.pedals ∧ (setExempt b s).shadow = s.shadow ∧ (setExempt b s).report = s.report ∧ (setExempt b s).updates = s.updates :=
  ⟨rfl, rfl, rfl, rfl, rfl, rfl, rfl, rfl, rfl, rfl, rfl, rfl, rfl, rfl, rfl, rfl, rfl, rfl, rfl, rfl, rfl, rfl, rfl⟩

@[simp] theorem putField_shadow (off : Nat) (w : Word) (s : State) :
    (putField off w s).shadow = (s.shadow.put off w) := rfl
@[simp] theorem putField_keeps (off : Nat) (w : Word) (s : State) :
    (putField off w s).now = s.now ∧ (putField off w s).pending = s.pending ∧ (putField off w s).rst = s.rst ∧ (putField off w s).inh = s.inh ∧ (putField off w s).ntc = s.ntc ∧ (putField off w s).pwait = s.pwait ∧ (putField off w s).spb = s.spb ∧ (putField off w s).pd = s.pd ∧ (putField off w s).kdNext = s.kdNext ∧ (putField off w s).mem = s.mem ∧ (putField off w s).arb = s.arb ∧ (putField off w s).ring = s.ring ∧ (putField off w s).track = s.track ∧ (putField off w s).clock = s.clock ∧ (putField off w s).expr = s.expr ∧ (putField off w s).sched = s.sched ∧ (putField off w s).fire = s.fire ∧ (putField off w s).keys = s.keys ∧ (putField off w s).heat = s.heat ∧ (putField off w s).pedals = s.pedals ∧ (putField off w s).cue = s.cue ∧ (putField off w s).report = s.report ∧ (putField off w s).updates = s.updates :=
  ⟨rfl, rfl, rfl, rfl, rfl, rfl, rfl, rfl, rfl, rfl, rfl, rfl, rfl, rfl, rfl, rfl, rfl, rfl, rfl, rfl, rfl, rfl, rfl⟩

@[simp] theorem setLoaded_shadow (b : Bool) (s : State) :
    (setLoaded b s).shadow = ({ s.shadow with loaded := b }) := rfl
@[simp] theorem setLoaded_keeps (b : Bool) (s : State) :
    (setLoaded b s).now = s.now ∧ (setLoaded b s).pending = s.pending ∧ (setLoaded b s).rst = s.rst ∧ (setLoaded b s).inh = s.inh ∧ (setLoaded b s).ntc = s.ntc ∧ (setLoaded b s).pwait = s.pwait ∧ (setLoaded b s).spb = s.spb ∧ (setLoaded b s).pd = s.pd ∧ (setLoaded b s).kdNext = s.kdNext ∧ (setLoaded b s).mem = s.mem ∧ (setLoaded b s).arb = s.arb ∧ (setLoaded b s).ring = s.ring ∧ (setLoaded b s).track = s.track ∧ (setLoaded b s).clock = s.clock ∧ (setLoaded b s).expr = s.expr ∧ (setLoaded b s).sched = s.sched ∧ (setLoaded b s).fire = s.fire ∧ (setLoaded b s).keys = s.keys ∧ (setLoaded b s).heat = s.heat ∧ (setLoaded b s).pedals = s.pedals ∧ (setLoaded b s).cue = s.cue ∧ (setLoaded b s).report = s.report ∧ (setLoaded b s).updates = s.updates :=
  ⟨rfl, rfl, rfl, rfl, rfl, rfl, rfl, rfl, rfl, rfl, rfl, rfl, rfl, rfl, rfl, rfl, rfl, rfl, rfl, rfl, rfl, rfl, rfl⟩

@[simp] theorem setReadCount_shadow (n : Nat) (s : State) :
    (setReadCount n s).shadow = ({ s.shadow with readCount := n }) := rfl
@[simp] theorem setReadCount_keeps (n : Nat) (s : State) :
    (setReadCount n s).now = s.now ∧ (setReadCount n s).pending = s.pending ∧ (setReadCount n s).rst = s.rst ∧ (setReadCount n s).inh = s.inh ∧ (setReadCount n s).ntc = s.ntc ∧ (setReadCount n s).pwait = s.pwait ∧ (setReadCount n s).spb = s.spb ∧ (setReadCount n s).pd = s.pd ∧ (setReadCount n s).kdNext = s.kdNext ∧ (setReadCount n s).mem = s.mem ∧ (setReadCount n s).arb = s.arb ∧ (setReadCount n s).ring = s.ring ∧ (setReadCount n s).track = s.track ∧ (setReadCount n s).clock = s.clock ∧ (setReadCount n s).expr = s.expr ∧ (setReadCount n s).sched = s.sched ∧ (setReadCount n s).fire = s.fire ∧ (setReadCount n s).keys = s.keys ∧ (setReadCount n s).heat = s.heat ∧ (setReadCount n s).pedals = s.pedals ∧ (setReadCount n s).cue = s.cue ∧ (setReadCount n s).report = s.report ∧ (setReadCount n s).updates = s.updates :=
  ⟨rfl, rfl, rfl, rfl, rfl, rfl, rfl, rfl, rfl, rfl, rfl, rfl, rfl, rfl, rfl, rfl, rfl, rfl, rfl, rfl, rfl, rfl, rfl⟩

@[simp] theorem setArg_shadow (w : Word) (s : State) :
    (setArg w s).shadow = ({ s.shadow with arg := w }) := rfl
@[simp] theorem setArg_keeps (w : Word) (s : State) :
    (setArg w s).now = s.now ∧ (setArg w s).pending = s.pending ∧ (setArg w s).rst = s.rst ∧ (setArg w s).inh = s.inh ∧ (setArg w s).ntc = s.ntc ∧ (setArg w s).pwait = s.pwait ∧ (setArg w s).spb = s.spb ∧ (setArg w s).pd = s.pd ∧ (setArg w s).kdNext = s.kdNext ∧ (setArg w s).mem = s.mem ∧ (setArg w s).arb = s.arb ∧ (setArg w s).ring = s.ring ∧ (setArg w s).track = s.track ∧ (setArg w s).clock = s.clock ∧ (setArg w s).expr = s.expr ∧ (setArg w s).sched = s.sched ∧ (setArg w s).fire = s.fire ∧ (setArg w s).keys = s.keys ∧ (setArg w s).heat = s.heat ∧ (setArg w s).pedals = s.pedals ∧ (setArg w s).cue = s.cue ∧ (setArg w s).report = s.report ∧ (setArg w s).updates = s.updates :=
  ⟨rfl, rfl, rfl, rfl, rfl, rfl, rfl, rfl, rfl, rfl, rfl, rfl, rfl, rfl, rfl, rfl, rfl, rfl, rfl, rfl, rfl, rfl, rfl⟩

@[simp] theorem setHeldCommand_shadow (c : Option ProcCycle) (s : State) :
    (setHeldCommand c s).shadow = ({ s.shadow with held := c }) := rfl
@[simp] theorem setHeldCommand_keeps (c : Option ProcCycle) (s : State) :
    (setHeldCommand c s).now = s.now ∧ (setHeldCommand c s).pending = s.pending ∧ (setHeldCommand c s).rst = s.rst ∧ (setHeldCommand c s).inh = s.inh ∧ (setHeldCommand c s).ntc = s.ntc ∧ (setHeldCommand c s).pwait = s.pwait ∧ (setHeldCommand c s).spb = s.spb ∧ (setHeldCommand c s).pd = s.pd ∧ (setHeldCommand c s).kdNext = s.kdNext ∧ (setHeldCommand c s).mem = s.mem ∧ (setHeldCommand c s).arb = s.arb ∧ (setHeldCommand c s).ring = s.ring ∧ (setHeldCommand c s).track = s.track ∧ (setHeldCommand c s).clock = s.clock ∧ (setHeldCommand c s).expr = s.expr ∧ (setHeldCommand c s).sched = s.sched ∧ (setHeldCommand c s).fire = s.fire ∧ (setHeldCommand c s).keys = s.keys ∧ (setHeldCommand c s).heat = s.heat ∧ (setHeldCommand c s).pedals = s.pedals ∧ (setHeldCommand c s).cue = s.cue ∧ (setHeldCommand c s).report = s.report ∧ (setHeldCommand c s).updates = s.updates :=
  ⟨rfl, rfl, rfl, rfl, rfl, rfl, rfl, rfl, rfl, rfl, rfl, rfl, rfl, rfl, rfl, rfl, rfl, rfl, rfl, rfl, rfl, rfl, rfl⟩

@[simp] theorem bumpCount_shadow (s : State) :
    (bumpCount s).shadow = ({ s.shadow with count := s.shadow.count + 1 }) := rfl
@[simp] theorem bumpCount_keeps (s : State) :
    (bumpCount s).now = s.now ∧ (bumpCount s).pending = s.pending ∧ (bumpCount s).rst = s.rst ∧ (bumpCount s).inh = s.inh ∧ (bumpCount s).ntc = s.ntc ∧ (bumpCount s).pwait = s.pwait ∧ (bumpCount s).spb = s.spb ∧ (bumpCount s).pd = s.pd ∧ (bumpCount s).kdNext = s.kdNext ∧ (bumpCount s).mem = s.mem ∧ (bumpCount s).arb = s.arb ∧ (bumpCount s).ring = s.ring ∧ (bumpCount s).track = s.track ∧ (bumpCount s).clock = s.clock ∧ (bumpCount s).expr = s.expr ∧ (bumpCount s).sched = s.sched ∧ (bumpCount s).fire = s.fire ∧ (bumpCount s).keys = s.keys ∧ (bumpCount s).heat = s.heat ∧ (bumpCount s).pedals = s.pedals ∧ (bumpCount s).cue = s.cue ∧ (bumpCount s).report = s.report :=
  ⟨rfl, rfl, rfl, rfl, rfl, rfl, rfl, rfl, rfl, rfl, rfl, rfl, rfl, rfl, rfl, rfl, rfl, rfl, rfl, rfl, rfl, rfl⟩

@[simp] theorem setLoadFault_shadow (off : Nat) (s : State) :
    (setLoadFault off s).shadow = ({ s.shadow with loadFault := off }) := rfl
@[simp] theorem setLoadFault_keeps (off : Nat) (s : State) :
    (setLoadFault off s).now = s.now ∧ (setLoadFault off s).pending = s.pending ∧ (setLoadFault off s).rst = s.rst ∧ (setLoadFault off s).inh = s.inh ∧ (setLoadFault off s).ntc = s.ntc ∧ (setLoadFault off s).pwait = s.pwait ∧ (setLoadFault off s).spb = s.spb ∧ (setLoadFault off s).pd = s.pd ∧ (setLoadFault off s).kdNext = s.kdNext ∧ (setLoadFault off s).mem = s.mem ∧ (setLoadFault off s).arb = s.arb ∧ (setLoadFault off s).ring = s.ring ∧ (setLoadFault off s).track = s.track ∧ (setLoadFault off s).clock = s.clock ∧ (setLoadFault off s).expr = s.expr ∧ (setLoadFault off s).sched = s.sched ∧ (setLoadFault off s).fire = s.fire ∧ (setLoadFault off s).keys = s.keys ∧ (setLoadFault off s).heat = s.heat ∧ (setLoadFault off s).pedals = s.pedals ∧ (setLoadFault off s).cue = s.cue ∧ (setLoadFault off s).report = s.report :=
  ⟨rfl, rfl, rfl, rfl, rfl, rfl, rfl, rfl, rfl, rfl, rfl, rfl, rfl, rfl, rfl, rfl, rfl, rfl, rfl, rfl, rfl, rfl⟩

@[simp] theorem placeResult_shadow (code : Nat) (r : Reply) (s : State) :
    (placeResult code r s).shadow = ({ s.shadow with result := some { code := if inRange 1 code 9 then code else 0, reply := r, count := s.shadow.count } }) := rfl
@[simp] theorem placeResult_keeps (code : Nat) (r : Reply) (s : State) :
    (placeResult code r s).now = s.now ∧ (placeResult code r s).pending = s.pending ∧ (placeResult code r s).rst = s.rst ∧ (placeResult code r s).inh = s.inh ∧ (placeResult code r s).ntc = s.ntc ∧ (placeResult code r s).pwait = s.pwait ∧ (placeResult code r s).spb = s.spb ∧ (placeResult code r s).pd = s.pd ∧ (placeResult code r s).kdNext = s.kdNext ∧ (placeResult code r s).mem = s.mem ∧ (placeResult code r s).arb = s.arb ∧ (placeResult code r s).ring = s.ring ∧ (placeResult code r s).track = s.track ∧ (placeResult code r s).clock = s.clock ∧ (placeResult code r s).expr = s.expr ∧ (placeResult code r s).sched = s.sched ∧ (placeResult code r s).fire = s.fire ∧ (placeResult code r s).keys = s.keys ∧ (placeResult code r s).heat = s.heat ∧ (placeResult code r s).pedals = s.pedals ∧ (placeResult code r s).cue = s.cue ∧ (placeResult code r s).report = s.report :=
  ⟨rfl, rfl, rfl, rfl, rfl, rfl, rfl, rfl, rfl, rfl, rfl, rfl, rfl, rfl, rfl, rfl, rfl, rfl, rfl, rfl, rfl, rfl⟩

@[simp] theorem setInhibit_inh (b : Bool) (s : State) :
    (setInhibit b s).inh = (b) := rfl
@[simp] theorem setInhibit_keeps (b : Bool) (s : State) :
    (setInhibit b s).now = s.now ∧ (setInhibit b s).pending = s.pending ∧ (setInhibit b s).rst = s.rst ∧ (setInhibit b s).ntc = s.ntc ∧ (setInhibit b s).pwait = s.pwait ∧ (setInhibit b s).spb = s.spb ∧ (setInhibit b s).pd = s.pd ∧ (setInhibit b s).kdNext = s.kdNext ∧ (setInhibit b s).mem = s.mem ∧ (setInhibit b s).arb = s.arb ∧ (setInhibit b s).ring = s.ring ∧ (setInhibit b s).track = s.track ∧ (setInhibit b s).clock = s.clock ∧ (setInhibit b s).expr = s.expr ∧ (setInhibit b s).sched = s.sched ∧ (setInhibit b s).fire = s.fire ∧ (setInhibit b s).keys = s.keys ∧ (setInhibit b s).heat = s.heat ∧ (setInhibit b s).pedals = s.pedals ∧ (setInhibit b s).cue = s.cue ∧ (setInhibit b s).shadow = s.shadow ∧ (setInhibit b s).report = s.report :=
  ⟨rfl, rfl, rfl, rfl, rfl, rfl, rfl, rfl, rfl, rfl, rfl, rfl, rfl, rfl, rfl, rfl, rfl, rfl, rfl, rfl, rfl, rfl⟩

@[simp] theorem drivePins_ntc (s : State) :
    (drivePins s).ntc = (s.noticeDue) := rfl
@[simp] theorem drivePins_pwait (s : State) :
    (drivePins s).pwait = (s.arb.waiting.isSome || s.shadow.held.isSome) := rfl
@[simp] theorem drivePins_keeps (s : State) :
    (drivePins s).now = s.now ∧ (drivePins s).pending = s.pending ∧ (drivePins s).rst = s.rst ∧ (drivePins s).inh = s.inh ∧ (drivePins s).spb = s.spb ∧ (drivePins s).pd = s.pd ∧ (drivePins s).kdNext = s.kdNext ∧ (drivePins s).mem = s.mem ∧ (drivePins s).arb = s.arb ∧ (drivePins s).ring = s.ring ∧ (drivePins s).track = s.track ∧ (drivePins s).clock = s.clock ∧ (drivePins s).expr = s.expr ∧ (drivePins s).sched = s.sched ∧ (drivePins s).fire = s.fire ∧ (drivePins s).keys = s.keys ∧ (drivePins s).heat = s.heat ∧ (drivePins s).pedals = s.pedals ∧ (drivePins s).cue = s.cue ∧ (drivePins s).shadow = s.shadow ∧ (drivePins s).report = s.report ∧ (drivePins s).updates = s.updates :=
  ⟨rfl, rfl, rfl, rfl, rfl, rfl, rfl, rfl, rfl, rfl, rfl, rfl, rfl, rfl, rfl, rfl, rfl, rfl, rfl, rfl, rfl, rfl⟩

@[simp] theorem ringReset_ring (s : State) :
    (ringReset s).ring = { base := s.ring.base, nslots := s.ring.nslots } := rfl
@[simp] theorem ringReset_keeps (s : State) :
    (ringReset s).now = s.now ∧ (ringReset s).pending = s.pending ∧ (ringReset s).rst = s.rst ∧ (ringReset s).inh = s.inh ∧ (ringReset s).ntc = s.ntc ∧ (ringReset s).pwait = s.pwait ∧ (ringReset s).spb = s.spb ∧ (ringReset s).pd = s.pd ∧ (ringReset s).kdNext = s.kdNext ∧ (ringReset s).mem = s.mem ∧ (ringReset s).arb = s.arb ∧ (ringReset s).track = s.track ∧ (ringReset s).clock = s.clock ∧ (ringReset s).expr = s.expr ∧ (ringReset s).sched = s.sched ∧ (ringReset s).fire = s.fire ∧ (ringReset s).keys = s.keys ∧ (ringReset s).heat = s.heat ∧ (ringReset s).pedals = s.pedals ∧ (ringReset s).cue = s.cue ∧ (ringReset s).shadow = s.shadow ∧ (ringReset s).report = s.report :=
  ⟨rfl, rfl, rfl, rfl, rfl, rfl, rfl, rfl, rfl, rfl, rfl, rfl, rfl, rfl, rfl, rfl, rfl, rfl, rfl, rfl, rfl, rfl⟩

theorem raise_report (k : ReportKind) (subject detail : Word) (s : State) :
    (raise k subject detail s).report = s.report.accept { kind := k, tag := s.track.lastTag, subject := subject, detail := detail } := rfl
@[simp] theorem raise_keeps (k : ReportKind) (subject detail : Word) (s : State) :
    (raise k subject detail s).now = s.now ∧ (raise k subject detail s).pending = s.pending ∧ (raise k subject detail s).rst = s.rst ∧ (raise k subject detail s).inh = s.inh ∧ (raise k subject detail s).ntc = s.ntc ∧ (raise k subject detail s).pwait = s.pwait ∧ (raise k subject detail s).spb = s.spb ∧ (raise k subject detail s).pd = s.pd ∧ (raise k subject detail s).kdNext = s.kdNext ∧ (raise k subject detail s).mem = s.mem ∧ (raise k subject detail s).arb = s.arb ∧ (raise k subject detail s).ring = s.ring ∧ (raise k subject detail s).track = s.track ∧ (raise k subject detail s).clock = s.clock ∧ (raise k subject detail s).expr = s.expr ∧ (raise k subject detail s).sched = s.sched ∧ (raise k subject detail s).fire = s.fire ∧ (raise k subject detail s).keys = s.keys ∧ (raise k subject detail s).heat = s.heat ∧ (raise k subject detail s).pedals = s.pedals ∧ (raise k subject detail s).cue = s.cue ∧ (raise k subject detail s).shadow = s.shadow :=
  ⟨rfl, rfl, rfl, rfl, rfl, rfl, rfl, rfl, rfl, rfl, rfl, rfl, rfl, rfl, rfl, rfl, rfl, rfl, rfl, rfl, rfl, rfl⟩

end Sys2Proof.Machine
end

