-- ==== Sys2Proof/Laws/KeepKeys.lean ====
section
/-! SUPPORT. What the key operations keep: one lemma for each operation, the fields of State it leaves alone. -/

namespace Sys2Proof.Machine

/-- A part of the state that no step of a fold changes is kept by the fold. -/
theorem foldl_keeps {α β : Type} (proj : State → β) (f : State → α → State) (h : ∀ s a, proj (f s a) = proj s)
    (l : List α) (s : State) : proj (l.foldl f s) = proj s := by
  induction l generalizing s with
  | nil => rfl
  | cons a l ih => rw [List.foldl_cons, ih, h]

@[simp] theorem leaveFiring_keeps (was : KeyState) (s : State) :
    (leaveFiring was s).now = s.now ∧ (leaveFiring was s).pending = s.pending ∧ (leaveFiring was s).rst = s.rst ∧ (leaveFiring was s).inh = s.inh ∧ (leaveFiring was s).ntc = s.ntc ∧ (leaveFiring was s).pwait = s.pwait ∧ (leaveFiring was s).spb = s.spb ∧ (leaveFiring was s).pd = s.pd ∧ (leaveFiring was s).kdNext = s.kdNext ∧ (leaveFiring was s).mem = s.mem ∧ (leaveFiring was s).arb = s.arb ∧ (leaveFiring was s).ring = s.ring ∧ (leaveFiring was s).track = s.track ∧ (leaveFiring was s).clock = s.clock ∧ (leaveFiring was s).expr = s.expr ∧ (leaveFiring was s).sched = s.sched ∧ (leaveFiring was s).keys = s.keys ∧ (leaveFiring was s).heat = s.heat ∧ (leaveFiring was s).pedals = s.pedals ∧ (leaveFiring was s).cue = s.cue ∧ (leaveFiring was s).shadow = s.shadow ∧ (leaveFiring was s).report = s.report := by
  unfold leaveFiring
  (repeat' split) <;> simp

@[simp] theorem toReleasing_keeps (k : Key) (s : State) :
    (toReleasing k s).now = s.now ∧ (toReleasing k s).pending = s.pending ∧ (toReleasing k s).rst = s.rst ∧ (toReleasing k s).inh = s.inh ∧ (toReleasing k s).ntc = s.ntc ∧ (toReleasing k s).pwait = s.pwait ∧ (toReleasing k s).spb = s.spb ∧ (toReleasing k s).pd = s.pd ∧ (toReleasing k s).kdNext = s.kdNext ∧ (toReleasing k s).mem = s.mem ∧ (toReleasing k s).arb = s.arb ∧ (toReleasing k s).ring = s.ring ∧ (toReleasing k s).track = s.track ∧ (toReleasing k s).clock = s.clock ∧ (toReleasing k s).expr = s.expr ∧ (toReleasing k s).sched = s.sched ∧ (toReleasing k s).heat = s.heat ∧ (toReleasing k s).pedals = s.pedals ∧ (toReleasing k s).cue = s.cue ∧ (toReleasing k s).shadow = s.shadow ∧ (toReleasing k s).report = s.report := by
  unfold toReleasing
  (repeat' split) <;> simp

@[simp] theorem strikeGone_keeps (k : Key) (s : State) :
    (strikeGone k s).now = s.now ∧ (strikeGone k s).pending = s.pending ∧ (strikeGone k s).rst = s.rst ∧ (strikeGone k s).inh = s.inh ∧ (strikeGone k s).ntc = s.ntc ∧ (strikeGone k s).pwait = s.pwait ∧ (strikeGone k s).spb = s.spb ∧ (strikeGone k s).pd = s.pd ∧ (strikeGone k s).kdNext = s.kdNext ∧ (strikeGone k s).mem = s.mem ∧ (strikeGone k s).arb = s.arb ∧ (strikeGone k s).ring = s.ring ∧ (strikeGone k s).track = s.track ∧ (strikeGone k s).clock = s.clock ∧ (strikeGone k s).expr = s.expr ∧ (strikeGone k s).sched = s.sched ∧ (strikeGone k s).fire = s.fire ∧ (strikeGone k s).heat = s.heat ∧ (strikeGone k s).pedals = s.pedals ∧ (strikeGone k s).cue = s.cue ∧ (strikeGone k s).shadow = s.shadow ∧ (strikeGone k s).report = s.report := by
  unfold strikeGone
  (repeat' split) <;> simp

@[simp] theorem dropWaiting_keeps (k : Key) (s : State) :
    (dropWaiting k s).now = s.now ∧ (dropWaiting k s).pending = s.pending ∧ (dropWaiting k s).rst = s.rst ∧ (dropWaiting k s).inh = s.inh ∧ (dropWaiting k s).ntc = s.ntc ∧ (dropWaiting k s).pwait = s.pwait ∧ (dropWaiting k s).spb = s.spb ∧ (dropWaiting k s).pd = s.pd ∧ (dropWaiting k s).kdNext = s.kdNext ∧ (dropWaiting k s).mem = s.mem ∧ (dropWaiting k s).arb = s.arb ∧ (dropWaiting k s).ring = s.ring ∧ (dropWaiting k s).track = s.track ∧ (dropWaiting k s).clock = s.clock ∧ (dropWaiting k s).expr = s.expr ∧ (dropWaiting k s).sched = s.sched ∧ (dropWaiting k s).heat = s.heat ∧ (dropWaiting k s).pedals = s.pedals ∧ (dropWaiting k s).cue = s.cue ∧ (dropWaiting k s).shadow = s.shadow := by
  unfold dropWaiting
  (repeat' split) <;> simp

@[simp] theorem endNote_keeps (k : Key) (note : Option Byte) (s : State) :
    (endNote k note s).now = s.now ∧ (endNote k note s).pending = s.pending ∧ (endNote k note s).rst = s.rst ∧ (endNote k note s).inh = s.inh ∧ (endNote k note s).ntc = s.ntc ∧ (endNote k note s).pwait = s.pwait ∧ (endNote k note s).spb = s.spb ∧ (endNote k note s).pd = s.pd ∧ (endNote k note s).kdNext = s.kdNext ∧ (endNote k note s).mem = s.mem ∧ (endNote k note s).arb = s.arb ∧ (endNote k note s).ring = s.ring ∧ (endNote k note s).track = s.track ∧ (endNote k note s).clock = s.clock ∧ (endNote k note s).expr = s.expr ∧ (endNote k note s).fire = s.fire ∧ (endNote k note s).keys = s.keys ∧ (endNote k note s).heat = s.heat ∧ (endNote k note s).pedals = s.pedals ∧ (endNote k note s).cue = s.cue ∧ (endNote k note s).shadow = s.shadow ∧ (endNote k note s).report = s.report := by
  unfold endNote
  (repeat' split) <;> simp

@[simp] theorem grantOne_keeps (w : Waiting) (s : State) :
    (grantOne w s).now = s.now ∧ (grantOne w s).pending = s.pending ∧ (grantOne w s).rst = s.rst ∧ (grantOne w s).inh = s.inh ∧ (grantOne w s).ntc = s.ntc ∧ (grantOne w s).pwait = s.pwait ∧ (grantOne w s).spb = s.spb ∧ (grantOne w s).pd = s.pd ∧ (grantOne w s).kdNext = s.kdNext ∧ (grantOne w s).mem = s.mem ∧ (grantOne w s).arb = s.arb ∧ (grantOne w s).ring = s.ring ∧ (grantOne w s).track = s.track ∧ (grantOne w s).clock = s.clock ∧ (grantOne w s).expr = s.expr ∧ (grantOne w s).sched = s.sched ∧ (grantOne w s).heat = s.heat ∧ (grantOne w s).pedals = s.pedals ∧ (grantOne w s).cue = s.cue ∧ (grantOne w s).shadow = s.shadow := by
  unfold grantOne
  (repeat' split) <;> simp

@[simp] theorem grantLoop_keeps (n : Nat) (s : State) :
    (grantLoop n s).now = s.now ∧ (grantLoop n s).pending = s.pending ∧ (grantLoop n s).rst = s.rst ∧ (grantLoop n s).inh = s.inh ∧ (grantLoop n s).ntc = s.ntc ∧ (grantLoop n s).pwait = s.pwait ∧ (grantLoop n s).spb = s.spb ∧ (grantLoop n s).pd = s.pd ∧ (grantLoop n s).kdNext = s.kdNext ∧ (grantLoop n s).mem = s.mem ∧ (grantLoop n s).arb = s.arb ∧ (grantLoop n s).ring = s.ring ∧ (grantLoop n s).track = s.track ∧ (grantLoop n s).clock = s.clock ∧ (grantLoop n s).expr = s.expr ∧ (grantLoop n s).sched = s.sched ∧ (grantLoop n s).heat = s.heat ∧ (grantLoop n s).pedals = s.pedals ∧ (grantLoop n s).cue = s.cue ∧ (grantLoop n s).shadow = s.shadow := by
  induction n generalizing s with
  | zero => simp [grantLoop]
  | succ n ih => unfold grantLoop; (repeat' split) <;> simp [ih]

@[simp] theorem grantStrikes_keeps (s : State) :
    (grantStrikes s).now = s.now ∧ (grantStrikes s).pending = s.pending ∧ (grantStrikes s).rst = s.rst ∧ (grantStrikes s).inh = s.inh ∧ (grantStrikes s).ntc = s.ntc ∧ (grantStrikes s).pwait = s.pwait ∧ (grantStrikes s).spb = s.spb ∧ (grantStrikes s).pd = s.pd ∧ (grantStrikes s).kdNext = s.kdNext ∧ (grantStrikes s).mem = s.mem ∧ (grantStrikes s).arb = s.arb ∧ (grantStrikes s).ring = s.ring ∧ (grantStrikes s).track = s.track ∧ (grantStrikes s).clock = s.clock ∧ (grantStrikes s).expr = s.expr ∧ (grantStrikes s).sched = s.sched ∧ (grantStrikes s).heat = s.heat ∧ (grantStrikes s).pedals = s.pedals ∧ (grantStrikes s).cue = s.cue ∧ (grantStrikes s).shadow = s.shadow := by
  unfold grantStrikes
  (repeat' split) <;> simp

@[simp] theorem strikeJoins_keeps (k : Key) (serial : Byte) (s : State) :
    (strikeJoins k serial s).now = s.now ∧ (strikeJoins k serial s).pending = s.pending ∧ (strikeJoins k serial s).rst = s.rst ∧ (strikeJoins k serial s).inh = s.inh ∧ (strikeJoins k serial s).ntc = s.ntc ∧ (strikeJoins k serial s).pwait = s.pwait ∧ (strikeJoins k serial s).spb = s.spb ∧ (strikeJoins k serial s).pd = s.pd ∧ (strikeJoins k serial s).kdNext = s.kdNext ∧ (strikeJoins k serial s).mem = s.mem ∧ (strikeJoins k serial s).arb = s.arb ∧ (strikeJoins k serial s).ring = s.ring ∧ (strikeJoins k serial s).track = s.track ∧ (strikeJoins k serial s).clock = s.clock ∧ (strikeJoins k serial s).expr = s.expr ∧ (strikeJoins k serial s).heat = s.heat ∧ (strikeJoins k serial s).pedals = s.pedals ∧ (strikeJoins k serial s).cue = s.cue ∧ (strikeJoins k serial s).shadow = s.shadow ∧ (strikeJoins k serial s).report = s.report := by
  unfold strikeJoins
  (repeat' split) <;> simp

@[simp] theorem replaceWaiting_keeps (k : Key) (s : State) :
    (replaceWaiting k s).now = s.now ∧ (replaceWaiting k s).pending = s.pending ∧ (replaceWaiting k s).rst = s.rst ∧ (replaceWaiting k s).inh = s.inh ∧ (replaceWaiting k s).ntc = s.ntc ∧ (replaceWaiting k s).pwait = s.pwait ∧ (replaceWaiting k s).spb = s.spb ∧ (replaceWaiting k s).pd = s.pd ∧ (replaceWaiting k s).kdNext = s.kdNext ∧ (replaceWaiting k s).mem = s.mem ∧ (replaceWaiting k s).arb = s.arb ∧ (replaceWaiting k s).ring = s.ring ∧ (replaceWaiting k s).track = s.track ∧ (replaceWaiting k s).clock = s.clock ∧ (replaceWaiting k s).expr = s.expr ∧ (replaceWaiting k s).sched = s.sched ∧ (replaceWaiting k s).keys = s.keys ∧ (replaceWaiting k s).heat = s.heat ∧ (replaceWaiting k s).pedals = s.pedals ∧ (replaceWaiting k s).cue = s.cue ∧ (replaceWaiting k s).shadow = s.shadow := by
  unfold replaceWaiting
  (repeat' split) <;> simp

@[simp] theorem expireOnEntry_keeps (w : Waiting) (s : State) :
    (expireOnEntry w s).now = s.now ∧ (expireOnEntry w s).pending = s.pending ∧ (expireOnEntry w s).rst = s.rst ∧ (expireOnEntry w s).inh = s.inh ∧ (expireOnEntry w s).ntc = s.ntc ∧ (expireOnEntry w s).pwait = s.pwait ∧ (expireOnEntry w s).spb = s.spb ∧ (expireOnEntry w s).pd = s.pd ∧ (expireOnEntry w s).kdNext = s.kdNext ∧ (expireOnEntry w s).mem = s.mem ∧ (expireOnEntry w s).arb = s.arb ∧ (expireOnEntry w s).ring = s.ring ∧ (expireOnEntry w s).track = s.track ∧ (expireOnEntry w s).clock = s.clock ∧ (expireOnEntry w s).expr = s.expr ∧ (expireOnEntry w s).sched = s.sched ∧ (expireOnEntry w s).heat = s.heat ∧ (expireOnEntry w s).pedals = s.pedals ∧ (expireOnEntry w s).cue = s.cue ∧ (expireOnEntry w s).shadow = s.shadow := by
  unfold expireOnEntry
  (repeat' split) <;> simp

@[simp] theorem enterQueue_keeps (w : Waiting) (s : State) :
    (enterQueue w s).now = s.now ∧ (enterQueue w s).pending = s.pending ∧ (enterQueue w s).rst = s.rst ∧ (enterQueue w s).inh = s.inh ∧ (enterQueue w s).ntc = s.ntc ∧ (enterQueue w s).pwait = s.pwait ∧ (enterQueue w s).spb = s.spb ∧ (enterQueue w s).pd = s.pd ∧ (enterQueue w s).kdNext = s.kdNext ∧ (enterQueue w s).mem = s.mem ∧ (enterQueue w s).arb = s.arb ∧ (enterQueue w s).ring = s.ring ∧ (enterQueue w s).track = s.track ∧ (enterQueue w s).clock = s.clock ∧ (enterQueue w s).expr = s.expr ∧ (enterQueue w s).heat = s.heat ∧ (enterQueue w s).pedals = s.pedals ∧ (enterQueue w s).cue = s.cue ∧ (enterQueue w s).shadow = s.shadow := by
  unfold enterQueue
  dsimp only
  (repeat' split) <;> simp

@[simp] theorem takeRelease_keeps (k : Key) (serial : Byte) (s : State) :
    (takeRelease k serial s).now = s.now ∧ (takeRelease k serial s).pending = s.pending ∧ (takeRelease k serial s).rst = s.rst ∧ (takeRelease k serial s).inh = s.inh ∧ (takeRelease k serial s).ntc = s.ntc ∧ (takeRelease k serial s).pwait = s.pwait ∧ (takeRelease k serial s).spb = s.spb ∧ (takeRelease k serial s).pd = s.pd ∧ (takeRelease k serial s).kdNext = s.kdNext ∧ (takeRelease k serial s).mem = s.mem ∧ (takeRelease k serial s).arb = s.arb ∧ (takeRelease k serial s).ring = s.ring ∧ (takeRelease k serial s).track = s.track ∧ (takeRelease k serial s).clock = s.clock ∧ (takeRelease k serial s).expr = s.expr ∧ (takeRelease k serial s).sched = s.sched ∧ (takeRelease k serial s).heat = s.heat ∧ (takeRelease k serial s).pedals = s.pedals ∧ (takeRelease k serial s).cue = s.cue ∧ (takeRelease k serial s).shadow = s.shadow ∧ (takeRelease k serial s).report = s.report := by
  unfold takeRelease
  (repeat' split) <;> simp

@[simp] theorem earlyRelease_keeps (k : Key) (cause : Word) (s : State) :
    (earlyRelease k cause s).now = s.now ∧ (earlyRelease k cause s).pending = s.pending ∧ (earlyRelease k cause s).rst = s.rst ∧ (earlyRelease k cause s).inh = s.inh ∧ (earlyRelease k cause s).ntc = s.ntc ∧ (earlyRelease k cause s).pwait = s.pwait ∧ (earlyRelease k cause s).spb = s.spb ∧ (earlyRelease k cause s).pd = s.pd ∧ (earlyRelease k cause s).kdNext = s.kdNext ∧ (earlyRelease k cause s).mem = s.mem ∧ (earlyRelease k cause s).arb = s.arb ∧ (earlyRelease k cause s).ring = s.ring ∧ (earlyRelease k cause s).track = s.track ∧ (earlyRelease k cause s).clock = s.clock ∧ (earlyRelease k cause s).expr = s.expr ∧ (earlyRelease k cause s).heat = s.heat ∧ (earlyRelease k cause s).pedals = s.pedals ∧ (earlyRelease k cause s).cue = s.cue ∧ (earlyRelease k cause s).shadow = s.shadow := by
  unfold earlyRelease
  (repeat' split) <;> simp

@[simp] theorem reduceHold_keeps (k : Key) (s : State) :
    (reduceHold k s).now = s.now ∧ (reduceHold k s).pending = s.pending ∧ (reduceHold k s).rst = s.rst ∧ (reduceHold k s).inh = s.inh ∧ (reduceHold k s).ntc = s.ntc ∧ (reduceHold k s).pwait = s.pwait ∧ (reduceHold k s).spb = s.spb ∧ (reduceHold k s).pd = s.pd ∧ (reduceHold k s).kdNext = s.kdNext ∧ (reduceHold k s).mem = s.mem ∧ (reduceHold k s).arb = s.arb ∧ (reduceHold k s).ring = s.ring ∧ (reduceHold k s).track = s.track ∧ (reduceHold k s).clock = s.clock ∧ (reduceHold k s).expr = s.expr ∧ (reduceHold k s).sched = s.sched ∧ (reduceHold k s).fire = s.fire ∧ (reduceHold k s).heat = s.heat ∧ (reduceHold k s).pedals = s.pedals ∧ (reduceHold k s).cue = s.cue ∧ (reduceHold k s).shadow = s.shadow := by
  unfold reduceHold
  (repeat' split) <;> simp

@[simp] theorem heatTest_keeps (k : Key) (s : State) :
    (heatTest k s).now = s.now ∧ (heatTest k s).pending = s.pending ∧ (heatTest k s).rst = s.rst ∧ (heatTest k s).inh = s.inh ∧ (heatTest k s).ntc = s.ntc ∧ (heatTest k s).pwait = s.pwait ∧ (heatTest k s).spb = s.spb ∧ (heatTest k s).pd = s.pd ∧ (heatTest k s).kdNext = s.kdNext ∧ (heatTest k s).mem = s.mem ∧ (heatTest k s).arb = s.arb ∧ (heatTest k s).ring = s.ring ∧ (heatTest k s).track = s.track ∧ (heatTest k s).clock = s.clock ∧ (heatTest k s).expr = s.expr ∧ (heatTest k s).heat = s.heat ∧ (heatTest k s).pedals = s.pedals ∧ (heatTest k s).cue = s.cue ∧ (heatTest k s).shadow = s.shadow := by
  unfold heatTest
  (repeat' split) <;> simp

@[simp] theorem heatKey_keeps (s : State) (k : Key) :
    (heatKey s k).now = s.now ∧ (heatKey s k).pending = s.pending ∧ (heatKey s k).rst = s.rst ∧ (heatKey s k).inh = s.inh ∧ (heatKey s k).ntc = s.ntc ∧ (heatKey s k).pwait = s.pwait ∧ (heatKey s k).spb = s.spb ∧ (heatKey s k).pd = s.pd ∧ (heatKey s k).kdNext = s.kdNext ∧ (heatKey s k).mem = s.mem ∧ (heatKey s k).arb = s.arb ∧ (heatKey s k).ring = s.ring ∧ (heatKey s k).track = s.track ∧ (heatKey s k).clock = s.clock ∧ (heatKey s k).expr = s.expr ∧ (heatKey s k).heat = s.heat ∧ (heatKey s k).pedals = s.pedals ∧ (heatKey s k).cue = s.cue ∧ (heatKey s k).shadow = s.shadow := by
  unfold heatKey
  (repeat' split) <;> simp

@[simp] theorem minHoldOut_keeps (k : Key) (s : State) :
    (minHoldOut k s).now = s.now ∧ (minHoldOut k s).pending = s.pending ∧ (minHoldOut k s).rst = s.rst ∧ (minHoldOut k s).inh = s.inh ∧ (minHoldOut k s).ntc = s.ntc ∧ (minHoldOut k s).pwait = s.pwait ∧ (minHoldOut k s).spb = s.spb ∧ (minHoldOut k s).pd = s.pd ∧ (minHoldOut k s).kdNext = s.kdNext ∧ (minHoldOut k s).mem = s.mem ∧ (minHoldOut k s).arb = s.arb ∧ (minHoldOut k s).ring = s.ring ∧ (minHoldOut k s).track = s.track ∧ (minHoldOut k s).clock = s.clock ∧ (minHoldOut k s).expr = s.expr ∧ (minHoldOut k s).sched = s.sched ∧ (minHoldOut k s).heat = s.heat ∧ (minHoldOut k s).pedals = s.pedals ∧ (minHoldOut k s).cue = s.cue ∧ (minHoldOut k s).shadow = s.shadow ∧ (minHoldOut k s).report = s.report := by
  unfold minHoldOut
  (repeat' split) <;> simp

@[simp] theorem enterHolding_keeps (k : Key) (s : State) :
    (enterHolding k s).now = s.now ∧ (enterHolding k s).pending = s.pending ∧ (enterHolding k s).rst = s.rst ∧ (enterHolding k s).inh = s.inh ∧ (enterHolding k s).ntc = s.ntc ∧ (enterHolding k s).pwait = s.pwait ∧ (enterHolding k s).spb = s.spb ∧ (enterHolding k s).pd = s.pd ∧ (enterHolding k s).kdNext = s.kdNext ∧ (enterHolding k s).mem = s.mem ∧ (enterHolding k s).arb = s.arb ∧ (enterHolding k s).ring = s.ring ∧ (enterHolding k s).track = s.track ∧ (enterHolding k s).clock = s.clock ∧ (enterHolding k s).expr = s.expr ∧ (enterHolding k s).sched = s.sched ∧ (enterHolding k s).heat = s.heat ∧ (enterHolding k s).pedals = s.pedals ∧ (enterHolding k s).cue = s.cue ∧ (enterHolding k s).shadow = s.shadow ∧ (enterHolding k s).report = s.report := by
  unfold enterHolding
  (repeat' split) <;> simp

@[simp] theorem minHoldAtOnce_keeps (k : Key) (s : State) :
    (minHoldAtOnce k s).now = s.now ∧ (minHoldAtOnce k s).pending = s.pending ∧ (minHoldAtOnce k s).rst = s.rst ∧ (minHoldAtOnce k s).inh = s.inh ∧ (minHoldAtOnce k s).ntc = s.ntc ∧ (minHoldAtOnce k s).pwait = s.pwait ∧ (minHoldAtOnce k s).spb = s.spb ∧ (minHoldAtOnce k s).pd = s.pd ∧ (minHoldAtOnce k s).kdNext = s.kdNext ∧ (minHoldAtOnce k s).mem = s.mem ∧ (minHoldAtOnce k s).arb = s.arb ∧ (minHoldAtOnce k s).ring = s.ring ∧ (minHoldAtOnce k s).track = s.track ∧ (minHoldAtOnce k s).clock = s.clock ∧ (minHoldAtOnce k s).expr = s.expr ∧ (minHoldAtOnce k s).sched = s.sched ∧ (minHoldAtOnce k s).heat = s.heat ∧ (minHoldAtOnce k s).pedals = s.pedals ∧ (minHoldAtOnce k s).cue = s.cue ∧ (minHoldAtOnce k s).shadow = s.shadow ∧ (minHoldAtOnce k s).report = s.report := by
  unfold minHoldAtOnce
  (repeat' split) <;> simp

@[simp] theorem pulseEnds_keeps (k : Key) (expiryFirst : Bool) (s : State) :
    (pulseEnds k expiryFirst s).now = s.now ∧ (pulseEnds k expiryFirst s).pending = s.pending ∧ (pulseEnds k expiryFirst s).rst = s.rst ∧ (pulseEnds k expiryFirst s).inh = s.inh ∧ (pulseEnds k expiryFirst s).ntc = s.ntc ∧ (pulseEnds k expiryFirst s).pwait = s.pwait ∧ (pulseEnds k expiryFirst s).spb = s.spb ∧ (pulseEnds k expiryFirst s).pd = s.pd ∧ (pulseEnds k expiryFirst s).kdNext = s.kdNext ∧ (pulseEnds k expiryFirst s).mem = s.mem ∧ (pulseEnds k expiryFirst s).arb = s.arb ∧ (pulseEnds k expiryFirst s).ring = s.ring ∧ (pulseEnds k expiryFirst s).track = s.track ∧ (pulseEnds k expiryFirst s).clock = s.clock ∧ (pulseEnds k expiryFirst s).expr = s.expr ∧ (pulseEnds k expiryFirst s).heat = s.heat ∧ (pulseEnds k expiryFirst s).pedals = s.pedals ∧ (pulseEnds k expiryFirst s).cue = s.cue ∧ (pulseEnds k expiryFirst s).shadow = s.shadow := by
  unfold pulseEnds
  (repeat' split) <;> simp

@[simp] theorem becomesFree_keeps (k : Key) (s : State) :
    (becomesFree k s).now = s.now ∧ (becomesFree k s).pending = s.pending ∧ (becomesFree k s).rst = s.rst ∧ (becomesFree k s).inh = s.inh ∧ (becomesFree k s).ntc = s.ntc ∧ (becomesFree k s).pwait = s.pwait ∧ (becomesFree k s).spb = s.spb ∧ (becomesFree k s).pd = s.pd ∧ (becomesFree k s).kdNext = s.kdNext ∧ (becomesFree k s).mem = s.mem ∧ (becomesFree k s).arb = s.arb ∧ (becomesFree k s).ring = s.ring ∧ (becomesFree k s).track = s.track ∧ (becomesFree k s).clock = s.clock ∧ (becomesFree k s).expr = s.expr ∧ (becomesFree k s).sched = s.sched ∧ (becomesFree k s).heat = s.heat ∧ (becomesFree k s).pedals = s.pedals ∧ (becomesFree k s).cue = s.cue ∧ (becomesFree k s).shadow = s.shadow := by
  unfold becomesFree
  (repeat' split) <;> simp

@[simp] theorem lockKey_keeps (k : Key) (src : Source) (direct : Nat) (s : State) :
    (lockKey k src direct s).now = s.now ∧ (lockKey k src direct s).pending = s.pending ∧ (lockKey k src direct s).rst = s.rst ∧ (lockKey k src direct s).inh = s.inh ∧ (lockKey k src direct s).ntc = s.ntc ∧ (lockKey k src direct s).pwait = s.pwait ∧ (lockKey k src direct s).spb = s.spb ∧ (lockKey k src direct s).pd = s.pd ∧ (lockKey k src direct s).kdNext = s.kdNext ∧ (lockKey k src direct s).mem = s.mem ∧ (lockKey k src direct s).arb = s.arb ∧ (lockKey k src direct s).ring = s.ring ∧ (lockKey k src direct s).track = s.track ∧ (lockKey k src direct s).clock = s.clock ∧ (lockKey k src direct s).expr = s.expr ∧ (lockKey k src direct s).heat = s.heat ∧ (lockKey k src direct s).pedals = s.pedals ∧ (lockKey k src direct s).cue = s.cue ∧ (lockKey k src direct s).shadow = s.shadow ∧ (lockKey k src direct s).report = s.report := by
  unfold lockKey
  (repeat' split) <;> simp

@[simp] theorem unlockKey_keeps (k : Key) (direct : Nat) (s : State) :
    (unlockKey k direct s).now = s.now ∧ (unlockKey k direct s).pending = s.pending ∧ (unlockKey k direct s).rst = s.rst ∧ (unlockKey k direct s).inh = s.inh ∧ (unlockKey k direct s).ntc = s.ntc ∧ (unlockKey k direct s).pwait = s.pwait ∧ (unlockKey k direct s).spb = s.spb ∧ (unlockKey k direct s).pd = s.pd ∧ (unlockKey k direct s).kdNext = s.kdNext ∧ (unlockKey k direct s).mem = s.mem ∧ (unlockKey k direct s).arb = s.arb ∧ (unlockKey k direct s).ring = s.ring ∧ (unlockKey k direct s).track = s.track ∧ (unlockKey k direct s).clock = s.clock ∧ (unlockKey k direct s).expr = s.expr ∧ (unlockKey k direct s).sched = s.sched ∧ (unlockKey k direct s).heat = s.heat ∧ (unlockKey k direct s).pedals = s.pedals ∧ (unlockKey k direct s).cue = s.cue ∧ (unlockKey k direct s).shadow = s.shadow ∧ (unlockKey k direct s).report = s.report := by
  unfold unlockKey
  (repeat' split) <;> simp

@[simp] theorem applyKeyWord_keeps (k : Key) (w : Word) (s : State) :
    (applyKeyWord k w s).now = s.now ∧ (applyKeyWord k w s).pending = s.pending ∧ (applyKeyWord k w s).rst = s.rst ∧ (applyKeyWord k w s).inh = s.inh ∧ (applyKeyWord k w s).ntc = s.ntc ∧ (applyKeyWord k w s).pwait = s.pwait ∧ (applyKeyWord k w s).spb = s.spb ∧ (applyKeyWord k w s).pd = s.pd ∧ (applyKeyWord k w s).kdNext = s.kdNext ∧ (applyKeyWord k w s).mem = s.mem ∧ (applyKeyWord k w s).arb = s.arb ∧ (applyKeyWord k w s).ring = s.ring ∧ (applyKeyWord k w s).track = s.track ∧ (applyKeyWord k w s).clock = s.clock ∧ (applyKeyWord k w s).expr = s.expr ∧ (applyKeyWord k w s).heat = s.heat ∧ (applyKeyWord k w s).pedals = s.pedals ∧ (applyKeyWord k w s).cue = s.cue ∧ (applyKeyWord k w s).shadow = s.shadow ∧ (applyKeyWord k w s).report = s.report := by
  unfold applyKeyWord
  (repeat' split) <;> simp

@[simp] theorem alignKeys_keeps (s : State) :
    (alignKeys s).now = s.now ∧ (alignKeys s).pending = s.pending ∧ (alignKeys s).rst = s.rst ∧ (alignKeys s).inh = s.inh ∧ (alignKeys s).ntc = s.ntc ∧ (alignKeys s).pwait = s.pwait ∧ (alignKeys s).spb = s.spb ∧ (alignKeys s).pd = s.pd ∧ (alignKeys s).kdNext = s.kdNext ∧ (alignKeys s).mem = s.mem ∧ (alignKeys s).arb = s.arb ∧ (alignKeys s).ring = s.ring ∧ (alignKeys s).track = s.track ∧ (alignKeys s).clock = s.clock ∧ (alignKeys s).expr = s.expr ∧ (alignKeys s).heat = s.heat ∧ (alignKeys s).pedals = s.pedals ∧ (alignKeys s).cue = s.cue ∧ (alignKeys s).shadow = s.shadow ∧ (alignKeys s).report = s.report := by
  unfold alignKeys
  refine ⟨?_, ?_, ?_, ?_, ?_, ?_, ?_, ?_, ?_, ?_, ?_, ?_, ?_, ?_, ?_, ?_, ?_, ?_, ?_, ?_⟩
  · exact foldl_keeps (fun x : State => x.now) _ (by intro s k; (repeat' split) <;> simp) _ _
  · exact foldl_keeps (fun x : State => x.pending) _ (by intro s k; (repeat' split) <;> simp) _ _
  · exact foldl_keeps (fun x : State => x.rst) _ (by intro s k; (repeat' split) <;> simp) _ _
  · exact foldl_keeps (fun x : State => x.inh) _ (by intro s k; (repeat' split) <;> simp) _ _
  · exact foldl_keeps (fun x : State => x.ntc) _ (by intro s k; (repeat' split) <;> simp) _ _
  · exact foldl_keeps (fun x : State => x.pwait) _ (by intro s k; (repeat' split) <;> simp) _ _
  · exact foldl_keeps (fun x : State => x.spb) _ (by intro s k; (repeat' split) <;> simp) _ _
  · exact foldl_keeps (fun x : State => x.pd) _ (by intro s k; (repeat' split) <;> simp) _ _
  · exact foldl_keeps (fun x : State => x.kdNext) _ (by intro s k; (repeat' split) <;> simp) _ _
  · exact foldl_keeps (fun x : State => x.mem) _ (by intro s k; (repeat' split) <;> simp) _ _
  · exact foldl_keeps (fun x : State => x.arb) _ (by intro s k; (repeat' split) <;> simp) _ _
  · exact foldl_keeps (fun x : State => x.ring) _ (by intro s k; (repeat' split) <;> simp) _ _
  · exact foldl_keeps (fun x : State => x.track) _ (by intro s k; (repeat' split) <;> simp) _ _
  · exact foldl_keeps (fun x : State => x.clock) _ (by intro s k; (repeat' split) <;> simp) _ _
  · exact foldl_keeps (fun x : State => x.expr) _ (by intro s k; (repeat' split) <;> simp) _ _
  · exact foldl_keeps (fun x : State => x.heat) _ (by intro s k; (repeat' split) <;> simp) _ _
  · exact foldl_keeps (fun x : State => x.pedals) _ (by intro s k; (repeat' split) <;> simp) _ _
  · exact foldl_keeps (fun x : State => x.cue) _ (by intro s k; (repeat' split) <;> simp) _ _
  · exact foldl_keeps (fun x : State => x.shadow) _ (by intro s k; (repeat' split) <;> simp) _ _
  · exact foldl_keeps (fun x : State => x.report) _ (by intro s k; (repeat' split) <;> simp) _ _

@[simp] theorem refreshHolds_keeps (s : State) :
    (refreshHolds s).now = s.now ∧ (refreshHolds s).pending = s.pending ∧ (refreshHolds s).rst = s.rst ∧ (refreshHolds s).inh = s.inh ∧ (refreshHolds s).ntc = s.ntc ∧ (refreshHolds s).pwait = s.pwait ∧ (refreshHolds s).spb = s.spb ∧ (refreshHolds s).pd = s.pd ∧ (refreshHolds s).kdNext = s.kdNext ∧ (refreshHolds s).mem = s.mem ∧ (refreshHolds s).arb = s.arb ∧ (refreshHolds s).ring = s.ring ∧ (refreshHolds s).track = s.track ∧ (refreshHolds s).clock = s.clock ∧ (refreshHolds s).expr = s.expr ∧ (refreshHolds s).sched = s.sched ∧ (refreshHolds s).fire = s.fire ∧ (refreshHolds s).heat = s.heat ∧ (refreshHolds s).pedals = s.pedals ∧ (refreshHolds s).cue = s.cue ∧ (refreshHolds s).shadow = s.shadow ∧ (refreshHolds s).report = s.report := by
  unfold refreshHolds
  refine ⟨?_, ?_, ?_, ?_, ?_, ?_, ?_, ?_, ?_, ?_, ?_, ?_, ?_, ?_, ?_, ?_, ?_, ?_, ?_, ?_, ?_, ?_⟩
  · exact foldl_keeps (fun x : State => x.now) _ (by intro s k; (repeat' split) <;> simp) _ _
  · exact foldl_keeps (fun x : State => x.pending) _ (by intro s k; (repeat' split) <;> simp) _ _
  · exact foldl_keeps (fun x : State => x.rst) _ (by intro s k; (repeat' split) <;> simp) _ _
  · exact foldl_keeps (fun x : State => x.inh) _ (by intro s k; (repeat' split) <;> simp) _ _
  · exact foldl_keeps (fun x : State => x.ntc) _ (by intro s k; (repeat' split) <;> simp) _ _
  · exact foldl_keeps (fun x : State => x.pwait) _ (by intro s k; (repeat' split) <;> simp) _ _
  · exact foldl_keeps (fun x : State => x.spb) _ (by intro s k; (repeat' split) <;> simp) _ _
  · exact foldl_keeps (fun x : State => x.pd) _ (by intro s k; (repeat' split) <;> simp) _ _
  · exact foldl_keeps (fun x : State => x.kdNext) _ (by intro s k; (repeat' split) <;> simp) _ _
  · exact foldl_keeps (fun x : State => x.mem) _ (by intro s k; (repeat' split) <;> simp) _ _
  · exact foldl_keeps (fun x : State => x.arb) _ (by intro s k; (repeat' split) <;> simp) _ _
  · exact foldl_keeps (fun x : State => x.ring) _ (by intro s k; (repeat' split) <;> simp) _ _
  · exact foldl_keeps (fun x : State => x.track) _ (by intro s k; (repeat' split) <;> simp) _ _
  · exact foldl_keeps (fun x : State => x.clock) _ (by intro s k; (repeat' split) <;> simp) _ _
  · exact foldl_keeps (fun x : State => x.expr) _ (by intro s k; (repeat' split) <;> simp) _ _
  · exact foldl_keeps (fun x : State => x.sched) _ (by intro s k; (repeat' split) <;> simp) _ _
  · exact foldl_keeps (fun x : State => x.fire) _ (by intro s k; (repeat' split) <;> simp) _ _
  · exact foldl_keeps (fun x : State => x.heat) _ (by intro s k; (repeat' split) <;> simp) _ _
  · exact foldl_keeps (fun x : State => x.pedals) _ (by intro s k; (repeat' split) <;> simp) _ _
  · exact foldl_keeps (fun x : State => x.cue) _ (by intro s k; (repeat' split) <;> simp) _ _
  · exact foldl_keeps (fun x : State => x.shadow) _ (by intro s k; (repeat' split) <;> simp) _ _
  · exact foldl_keeps (fun x : State => x.report) _ (by intro s k; (repeat' split) <;> simp) _ _

@[simp] theorem keysToIdle_keeps (s : State) :
    (keysToIdle s).now = s.now ∧ (keysToIdle s).pending = s.pending ∧ (keysToIdle s).rst = s.rst ∧ (keysToIdle s).inh = s.inh ∧ (keysToIdle s).ntc = s.ntc ∧ (keysToIdle s).pwait = s.pwait ∧ (keysToIdle s).spb = s.spb ∧ (keysToIdle s).pd = s.pd ∧ (keysToIdle s).kdNext = s.kdNext ∧ (keysToIdle s).mem = s.mem ∧ (keysToIdle s).arb = s.arb ∧ (keysToIdle s).ring = s.ring ∧ (keysToIdle s).track = s.track ∧ (keysToIdle s).clock = s.clock ∧ (keysToIdle s).expr = s.expr ∧ (keysToIdle s).sched = s.sched ∧ (keysToIdle s).heat = s.heat ∧ (keysToIdle s).pedals = s.pedals ∧ (keysToIdle s).cue = s.cue ∧ (keysToIdle s).shadow = s.shadow ∧ (keysToIdle s).report = s.report := by
  unfold keysToIdle
  refine ⟨?_, ?_, ?_, ?_, ?_, ?_, ?_, ?_, ?_, ?_, ?_, ?_, ?_, ?_, ?_, ?_, ?_, ?_, ?_, ?_, ?_⟩
  · exact foldl_keeps (fun x : State => x.now) _ (by intro s k; (repeat' split) <;> simp) _ _
  · exact foldl_keeps (fun x : State => x.pending) _ (by intro s k; (repeat' split) <;> simp) _ _
  · exact foldl_keeps (fun x : State => x.rst) _ (by intro s k; (repeat' split) <;> simp) _ _
  · exact foldl_keeps (fun x : State => x.inh) _ (by intro s k; (repeat' split) <;> simp) _ _
  · exact foldl_keeps (fun x : State => x.ntc) _ (by intro s k; (repeat' split) <;> simp) _ _
  · exact foldl_keeps (fun x : State => x.pwait) _ (by intro s k; (repeat' split) <;> simp) _ _
  · exact foldl_keeps (fun x : State => x.spb) _ (by intro s k; (repeat' split) <;> simp) _ _
  · exact foldl_keeps (fun x : State => x.pd) _ (by intro s k; (repeat' split) <;> simp) _ _
  · exact foldl_keeps (fun x : State => x.kdNext) _ (by intro s k; (repeat' split) <;> simp) _ _
  · exact foldl_keeps (fun x : State => x.mem) _ (by intro s k; (repeat' split) <;> simp) _ _
  · exact foldl_keeps (fun x : State => x.arb) _ (by intro s k; (repeat' split) <;> simp) _ _
  · exact foldl_keeps (fun x : State => x.ring) _ (by intro s k; (repeat' split) <;> simp) _ _
  · exact foldl_keeps (fun x : State => x.track) _ (by intro s k; (repeat' split) <;> simp) _ _
  · exact foldl_keeps (fun x : State => x.clock) _ (by intro s k; (repeat' split) <;> simp) _ _
  · exact foldl_keeps (fun x : State => x.expr) _ (by intro s k; (repeat' split) <;> simp) _ _
  · exact foldl_keeps (fun x : State => x.sched) _ (by intro s k; (repeat' split) <;> simp) _ _
  · exact foldl_keeps (fun x : State => x.heat) _ (by intro s k; (repeat' split) <;> simp) _ _
  · exact foldl_keeps (fun x : State => x.pedals) _ (by intro s k; (repeat' split) <;> simp) _ _
  · exact foldl_keeps (fun x : State => x.cue) _ (by intro s k; (repeat' split) <;> simp) _ _
  · exact foldl_keeps (fun x : State => x.shadow) _ (by intro s k; (repeat' split) <;> simp) _ _
  · exact foldl_keeps (fun x : State => x.report) _ (by intro s k; (repeat' split) <;> simp) _ _

@[simp] theorem emptyQueue_keeps (s : State) :
    (emptyQueue s).now = s.now ∧ (emptyQueue s).pending = s.pending ∧ (emptyQueue s).rst = s.rst ∧ (emptyQueue s).inh = s.inh ∧ (emptyQueue s).ntc = s.ntc ∧ (emptyQueue s).pwait = s.pwait ∧ (emptyQueue s).spb = s.spb ∧ (emptyQueue s).pd = s.pd ∧ (emptyQueue s).kdNext = s.kdNext ∧ (emptyQueue s).mem = s.mem ∧ (emptyQueue s).arb = s.arb ∧ (emptyQueue s).ring = s.ring ∧ (emptyQueue s).track = s.track ∧ (emptyQueue s).clock = s.clock ∧ (emptyQueue s).expr = s.expr ∧ (emptyQueue s).sched = s.sched ∧ (emptyQueue s).heat = s.heat ∧ (emptyQueue s).pedals = s.pedals ∧ (emptyQueue s).cue = s.cue ∧ (emptyQueue s).shadow = s.shadow ∧ (emptyQueue s).report = s.report := by
  unfold emptyQueue
  refine ⟨?_, ?_, ?_, ?_, ?_, ?_, ?_, ?_, ?_, ?_, ?_, ?_, ?_, ?_, ?_, ?_, ?_, ?_, ?_, ?_, ?_⟩
  · exact foldl_keeps (fun x : State => x.now) _ (by intro s k; simp) _ _
  · exact foldl_keeps (fun x : State => x.pending) _ (by intro s k; simp) _ _
  · exact foldl_keeps (fun x : State => x.rst) _ (by intro s k; simp) _ _
  · exact foldl_keeps (fun x : State => x.inh) _ (by intro s k; simp) _ _
  · exact foldl_keeps (fun x : State => x.ntc) _ (by intro s k; simp) _ _
  · exact foldl_keeps (fun x : State => x.pwait) _ (by intro s k; simp) _ _
  · exact foldl_keeps (fun x : State => x.spb) _ (by intro s k; simp) _ _
  · exact foldl_keeps (fun x : State => x.pd) _ (by intro s k; simp) _ _
  · exact foldl_keeps (fun x : State => x.kdNext) _ (by intro s k; simp) _ _
  · exact foldl_keeps (fun x : State => x.mem) _ (by intro s k; simp) _ _
  · exact foldl_keeps (fun x : State => x.arb) _ (by intro s k; simp) _ _
  · exact foldl_keeps (fun x : State => x.ring) _ (by intro s k; simp) _ _
  · exact foldl_keeps (fun x : State => x.track) _ (by intro s k; simp) _ _
  · exact foldl_keeps (fun x : State => x.clock) _ (by intro s k; simp) _ _
  · exact foldl_keeps (fun x : State => x.expr) _ (by intro s k; simp) _ _
  · exact foldl_keeps (fun x : State => x.sched) _ (by intro s k; simp) _ _
  · exact foldl_keeps (fun x : State => x.heat) _ (by intro s k; simp) _ _
  · exact foldl_keeps (fun x : State => x.pedals) _ (by intro s k; simp) _ _
  · exact foldl_keeps (fun x : State => x.cue) _ (by intro s k; simp) _ _
  · exact foldl_keeps (fun x : State => x.shadow) _ (by intro s k; simp) _ _
  · exact foldl_keeps (fun x : State => x.report) _ (by intro s k; simp) _ _

@[simp] theorem stopKeys_keeps (s : State) :
    (stopKeys s).now = s.now ∧ (stopKeys s).pending = s.pending ∧ (stopKeys s).rst = s.rst ∧ (stopKeys s).inh = s.inh ∧ (stopKeys s).ntc = s.ntc ∧ (stopKeys s).pwait = s.pwait ∧ (stopKeys s).spb = s.spb ∧ (stopKeys s).pd = s.pd ∧ (stopKeys s).kdNext = s.kdNext ∧ (stopKeys s).mem = s.mem ∧ (stopKeys s).arb = s.arb ∧ (stopKeys s).ring = s.ring ∧ (stopKeys s).track = s.track ∧ (stopKeys s).clock = s.clock ∧ (stopKeys s).expr = s.expr ∧ (stopKeys s).sched = s.sched ∧ (stopKeys s).heat = s.heat ∧ (stopKeys s).pedals = s.pedals ∧ (stopKeys s).cue = s.cue ∧ (stopKeys s).shadow = s.shadow ∧ (stopKeys s).report = s.report := by
  unfold stopKeys
  refine ⟨?_, ?_, ?_, ?_, ?_, ?_, ?_, ?_, ?_, ?_, ?_, ?_, ?_, ?_, ?_, ?_, ?_, ?_, ?_, ?_, ?_⟩
  · exact foldl_keeps (fun x : State => x.now) _ (by intro s k; (repeat' split) <;> simp) _ _
  · exact foldl_keeps (fun x : State => x.pending) _ (by intro s k; (repeat' split) <;> simp) _ _
  · exact foldl_keeps (fun x : State => x.rst) _ (by intro s k; (repeat' split) <;> simp) _ _
  · exact foldl_keeps (fun x : State => x.inh) _ (by intro s k; (repeat' split) <;> simp) _ _
  · exact foldl_keeps (fun x : State => x.ntc) _ (by intro s k; (repeat' split) <;> simp) _ _
  · exact foldl_keeps (fun x : State => x.pwait) _ (by intro s k; (repeat' split) <;> simp) _ _
  · exact foldl_keeps (fun x : State => x.spb) _ (by intro s k; (repeat' split) <;> simp) _ _
  · exact foldl_keeps (fun x : State => x.pd) _ (by intro s k; (repeat' split) <;> simp) _ _
  · exact foldl_keeps (fun x : State => x.kdNext) _ (by intro s k; (repeat' split) <;> simp) _ _
  · exact foldl_keeps (fun x : State => x.mem) _ (by intro s k; (repeat' split) <;> simp) _ _
  · exact foldl_keeps (fun x : State => x.arb) _ (by intro s k; (repeat' split) <;> simp) _ _
  · exact foldl_keeps (fun x : State => x.ring) _ (by intro s k; (repeat' split) <;> simp) _ _
  · exact foldl_keeps (fun x : State => x.track) _ (by intro s k; (repeat' split) <;> simp) _ _
  · exact foldl_keeps (fun x : State => x.clock) _ (by intro s k; (repeat' split) <;> simp) _ _
  · exact foldl_keeps (fun x : State => x.expr) _ (by intro s k; (repeat' split) <;> simp) _ _
  · exact foldl_keeps (fun x : State => x.sched) _ (by intro s k; (repeat' split) <;> simp) _ _
  · exact foldl_keeps (fun x : State => x.heat) _ (by intro s k; (repeat' split) <;> simp) _ _
  · exact foldl_keeps (fun x : State => x.pedals) _ (by intro s k; (repeat' split) <;> simp) _ _
  · exact foldl_keeps (fun x : State => x.cue) _ (by intro s k; (repeat' split) <;> simp) _ _
  · exact foldl_keeps (fun x : State => x.shadow) _ (by intro s k; (repeat' split) <;> simp) _ _
  · exact foldl_keeps (fun x : State => x.report) _ (by intro s k; (repeat' split) <;> simp) _ _

@[simp] theorem silenceKeys_keeps (s : State) :
    (silenceKeys s).now = s.now ∧ (silenceKeys s).pending = s.pending ∧ (silenceKeys s).rst = s.rst ∧ (silenceKeys s).inh = s.inh ∧ (silenceKeys s).ntc = s.ntc ∧ (silenceKeys s).pwait = s.pwait ∧ (silenceKeys s).spb = s.spb ∧ (silenceKeys s).pd = s.pd ∧ (silenceKeys s).kdNext = s.kdNext ∧ (silenceKeys s).mem = s.mem ∧ (silenceKeys s).arb = s.arb ∧ (silenceKeys s).ring = s.ring ∧ (silenceKeys s).track = s.track ∧ (silenceKeys s).clock = s.clock ∧ (silenceKeys s).expr = s.expr ∧ (silenceKeys s).sched = s.sched ∧ (silenceKeys s).heat = s.heat ∧ (silenceKeys s).pedals = s.pedals ∧ (silenceKeys s).cue = s.cue ∧ (silenceKeys s).shadow = s.shadow ∧ (silenceKeys s).report = s.report := by
  unfold silenceKeys
  refine ⟨?_, ?_, ?_, ?_, ?_, ?_, ?_, ?_, ?_, ?_, ?_, ?_, ?_, ?_, ?_, ?_, ?_, ?_, ?_, ?_, ?_⟩
  · exact foldl_keeps (fun x : State => x.now) _ (by intro s k; (repeat' split) <;> simp) _ _
  · exact foldl_keeps (fun x : State => x.pending) _ (by intro s k; (repeat' split) <;> simp) _ _
  · exact foldl_keeps (fun x : State => x.rst) _ (by intro s k; (repeat' split) <;> simp) _ _
  · exact foldl_keeps (fun x : State => x.inh) _ (by intro s k; (repeat' split) <;> simp) _ _
  · exact foldl_keeps (fun x : State => x.ntc) _ (by intro s k; (repeat' split) <;> simp) _ _
  · exact foldl_keeps (fun x : State => x.pwait) _ (by intro s k; (repeat' split) <;> simp) _ _
  · exact foldl_keeps (fun x : State => x.spb) _ (by intro s k; (repeat' split) <;> simp) _ _
  · exact foldl_keeps (fun x : State => x.pd) _ (by intro s k; (repeat' split) <;> simp) _ _
  · exact foldl_keeps (fun x : State => x.kdNext) _ (by intro s k; (repeat' split) <;> simp) _ _
  · exact foldl_keeps (fun x : State => x.mem) _ (by intro s k; (repeat' split) <;> simp) _ _
  · exact foldl_keeps (fun x : State => x.arb) _ (by intro s k; (repeat' split) <;> simp) _ _
  · exact foldl_keeps (fun x : State => x.ring) _ (by intro s k; (repeat' split) <;> simp) _ _
  · exact foldl_keeps (fun x : State => x.track) _ (by intro s k; (repeat' split) <;> simp) _ _
  · exact foldl_keeps (fun x : State => x.clock) _ (by intro s k; (repeat' split) <;> simp) _ _
  · exact foldl_keeps (fun x : State => x.expr) _ (by intro s k; (repeat' split) <;> simp) _ _
  · exact foldl_keeps (fun x : State => x.sched) _ (by intro s k; (repeat' split) <;> simp) _ _
  · exact foldl_keeps (fun x : State => x.heat) _ (by intro s k; (repeat' split) <;> simp) _ _
  · exact foldl_keeps (fun x : State => x.pedals) _ (by intro s k; (repeat' split) <;> simp) _ _
  · exact foldl_keeps (fun x : State => x.cue) _ (by intro s k; (repeat' split) <;> simp) _ _
  · exact foldl_keeps (fun x : State => x.shadow) _ (by intro s k; (repeat' split) <;> simp) _ _
  · exact foldl_keeps (fun x : State => x.report) _ (by intro s k; (repeat' split) <;> simp) _ _

end Sys2Proof.Machine
end

