-- ==== Sys2Proof/Laws/KeepPedals.lean ====
section
/-! SUPPORT. What the pedal operations keep: one lemma for each operation, the fields of State it leaves alone. -/

namespace Sys2Proof.Machine

@[simp] theorem linkSend_keeps (s : State) :
    (linkSend s).now = s.now ∧ (linkSend s).pending = s.pending ∧ (linkSend s).rst = s.rst ∧ (linkSend s).inh = s.inh ∧ (linkSend s).ntc = s.ntc ∧ (linkSend s).pwait = s.pwait ∧ (linkSend s).spb = s.spb ∧ (linkSend s).pd = s.pd ∧ (linkSend s).kdNext = s.kdNext ∧ (linkSend s).mem = s.mem ∧ (linkSend s).arb = s.arb ∧ (linkSend s).ring = s.ring ∧ (linkSend s).track = s.track ∧ (linkSend s).clock = s.clock ∧ (linkSend s).expr = s.expr ∧ (linkSend s).sched = s.sched ∧ (linkSend s).fire = s.fire ∧ (linkSend s).keys = s.keys ∧ (linkSend s).heat = s.heat ∧ (linkSend s).cue = s.cue ∧ (linkSend s).shadow = s.shadow ∧ (linkSend s).report = s.report := by
  unfold linkSend
  (repeat' split) <;> simp

@[simp] theorem putMove_keeps (p : Pedal) (m : Move) (s : State) :
    (putMove p m s).now = s.now ∧ (putMove p m s).pending = s.pending ∧ (putMove p m s).rst = s.rst ∧ (putMove p m s).inh = s.inh ∧ (putMove p m s).ntc = s.ntc ∧ (putMove p m s).pwait = s.pwait ∧ (putMove p m s).spb = s.spb ∧ (putMove p m s).pd = s.pd ∧ (putMove p m s).kdNext = s.kdNext ∧ (putMove p m s).mem = s.mem ∧ (putMove p m s).arb = s.arb ∧ (putMove p m s).ring = s.ring ∧ (putMove p m s).track = s.track ∧ (putMove p m s).clock = s.clock ∧ (putMove p m s).expr = s.expr ∧ (putMove p m s).sched = s.sched ∧ (putMove p m s).fire = s.fire ∧ (putMove p m s).keys = s.keys ∧ (putMove p m s).heat = s.heat ∧ (putMove p m s).cue = s.cue ∧ (putMove p m s).shadow = s.shadow ∧ (putMove p m s).report = s.report := by
  unfold putMove
  (repeat' split) <;> simp

@[simp] theorem handMove_keeps (p : Pedal) (m : Move) (s : State) :
    (handMove p m s).now = s.now ∧ (handMove p m s).pending = s.pending ∧ (handMove p m s).rst = s.rst ∧ (handMove p m s).inh = s.inh ∧ (handMove p m s).ntc = s.ntc ∧ (handMove p m s).pwait = s.pwait ∧ (handMove p m s).spb = s.spb ∧ (handMove p m s).pd = s.pd ∧ (handMove p m s).kdNext = s.kdNext ∧ (handMove p m s).mem = s.mem ∧ (handMove p m s).arb = s.arb ∧ (handMove p m s).ring = s.ring ∧ (handMove p m s).track = s.track ∧ (handMove p m s).clock = s.clock ∧ (handMove p m s).expr = s.expr ∧ (handMove p m s).sched = s.sched ∧ (handMove p m s).fire = s.fire ∧ (handMove p m s).keys = s.keys ∧ (handMove p m s).heat = s.heat ∧ (handMove p m s).cue = s.cue ∧ (handMove p m s).shadow = s.shadow ∧ (handMove p m s).report = s.report := by
  unfold handMove
  (repeat' split) <;> simp

@[simp] theorem pedalsToZero_keeps (s : State) :
    (pedalsToZero s).now = s.now ∧ (pedalsToZero s).pending = s.pending ∧ (pedalsToZero s).rst = s.rst ∧ (pedalsToZero s).inh = s.inh ∧ (pedalsToZero s).ntc = s.ntc ∧ (pedalsToZero s).pwait = s.pwait ∧ (pedalsToZero s).spb = s.spb ∧ (pedalsToZero s).pd = s.pd ∧ (pedalsToZero s).kdNext = s.kdNext ∧ (pedalsToZero s).mem = s.mem ∧ (pedalsToZero s).arb = s.arb ∧ (pedalsToZero s).ring = s.ring ∧ (pedalsToZero s).track = s.track ∧ (pedalsToZero s).clock = s.clock ∧ (pedalsToZero s).expr = s.expr ∧ (pedalsToZero s).sched = s.sched ∧ (pedalsToZero s).fire = s.fire ∧ (pedalsToZero s).keys = s.keys ∧ (pedalsToZero s).heat = s.heat ∧ (pedalsToZero s).cue = s.cue ∧ (pedalsToZero s).shadow = s.shadow ∧ (pedalsToZero s).report = s.report := by
  unfold pedalsToZero
  refine ⟨?_, ?_, ?_, ?_, ?_, ?_, ?_, ?_, ?_, ?_, ?_, ?_, ?_, ?_, ?_, ?_, ?_, ?_, ?_, ?_, ?_, ?_⟩
  · exact foldl_keeps (fun x : State => x.now) _ (by intro s k; (repeat' split) <;> simp) _ _
  · exact foldl_keeps (fun x : State => x.pending) _ (by intro s k; (repeat' split) <;> simp) _ _
  · exact foldl_keeps (fun x : State => x.rst) _ (by intro s k; (repeat' split) <;> simp) _ _
  · exact foldl_keeps (fun x : State => x.inh) _ (by intro s k; (repeat' split) <;> simp) _ _
  · exact foldl_keeps (fun x : State => x.ntc) _ (by intro s k; (repeat' split) <;> simp) _ _
  · exact foldl_keeps (fun x : State => x.pwait) _ (by intro s k; (repeat' split) <;> simp) _ _
  · exact foldl_keeps (fun x : State => x.spb) _ (by intro s k; (repeat' split) <;> simp) _ _
  · exact foldl_keeps (fun x : State => x.pd) _ (by intro s k; (repeat' split) <;> simp) _ _
  · exact foldl_keeps (fun x : State => x.kdNext) _ (by intro s k; (repeat' split) <;> simp) _ _
  · exact foldl_keeps (fun x : State => x.mem) _ (by intro s k; (repeat' split) <;> simp) _ _
  · exact foldl_keeps (fun x : State => x.arb) _ (by intro s k; (repeat' split) <;> simp) _ _
  · exact foldl_keeps (fun x : State => x.ring) _ (by intro s k; (repeat' split) <;> simp) _ _
  · exact foldl_keeps (fun x : State => x.track) _ (by intro s k; (repeat' split) <;> simp) _ _
  · exact foldl_keeps (fun x : State => x.clock) _ (by intro s k; (repeat' split) <;> simp) _ _
  · exact foldl_keeps (fun x : State => x.expr) _ (by intro s k; (repeat' split) <;> simp) _ _
  · exact foldl_keeps (fun x : State => x.sched) _ (by intro s k; (repeat' split) <;> simp) _ _
  · exact foldl_keeps (fun x : State => x.fire) _ (by intro s k; (repeat' split) <;> simp) _ _
  · exact foldl_keeps (fun x : State => x.keys) _ (by intro s k; (repeat' split) <;> simp) _ _
  · exact foldl_keeps (fun x : State => x.heat) _ (by intro s k; (repeat' split) <;> simp) _ _
  · exact foldl_keeps (fun x : State => x.cue) _ (by intro s k; (repeat' split) <;> simp) _ _
  · exact foldl_keeps (fun x : State => x.shadow) _ (by intro s k; (repeat' split) <;> simp) _ _
  · exact foldl_keeps (fun x : State => x.report) _ (by intro s k; (repeat' split) <;> simp) _ _

@[simp] theorem abandonFrame_keeps (p : Pedal) (s : State) :
    (abandonFrame p s).now = s.now ∧ (abandonFrame p s).pending = s.pending ∧ (abandonFrame p s).rst = s.rst ∧ (abandonFrame p s).inh = s.inh ∧ (abandonFrame p s).ntc = s.ntc ∧ (abandonFrame p s).pwait = s.pwait ∧ (abandonFrame p s).spb = s.spb ∧ (abandonFrame p s).pd = s.pd ∧ (abandonFrame p s).kdNext = s.kdNext ∧ (abandonFrame p s).mem = s.mem ∧ (abandonFrame p s).arb = s.arb ∧ (abandonFrame p s).ring = s.ring ∧ (abandonFrame p s).track = s.track ∧ (abandonFrame p s).clock = s.clock ∧ (abandonFrame p s).expr = s.expr ∧ (abandonFrame p s).sched = s.sched ∧ (abandonFrame p s).fire = s.fire ∧ (abandonFrame p s).keys = s.keys ∧ (abandonFrame p s).heat = s.heat ∧ (abandonFrame p s).cue = s.cue ∧ (abandonFrame p s).shadow = s.shadow ∧ (abandonFrame p s).report = s.report ∧ (abandonFrame p s).updates = s.updates := by
  unfold abandonFrame
  (repeat' split) <;> simp

@[simp] theorem faultPedal_keeps (p : Pedal) (cause : Word) (s : State) :
    (faultPedal p cause s).now = s.now ∧ (faultPedal p cause s).pending = s.pending ∧ (faultPedal p cause s).rst = s.rst ∧ (faultPedal p cause s).inh = s.inh ∧ (faultPedal p cause s).ntc = s.ntc ∧ (faultPedal p cause s).pwait = s.pwait ∧ (faultPedal p cause s).spb = s.spb ∧ (faultPedal p cause s).pd = s.pd ∧ (faultPedal p cause s).kdNext = s.kdNext ∧ (faultPedal p cause s).mem = s.mem ∧ (faultPedal p cause s).arb = s.arb ∧ (faultPedal p cause s).ring = s.ring ∧ (faultPedal p cause s).track = s.track ∧ (faultPedal p cause s).clock = s.clock ∧ (faultPedal p cause s).expr = s.expr ∧ (faultPedal p cause s).sched = s.sched ∧ (faultPedal p cause s).fire = s.fire ∧ (faultPedal p cause s).keys = s.keys ∧ (faultPedal p cause s).heat = s.heat ∧ (faultPedal p cause s).cue = s.cue ∧ (faultPedal p cause s).shadow = s.shadow := by
  unfold faultPedal
  dsimp only
  (repeat' split) <;> simp

@[simp] theorem takeAck_keeps (p : Pedal) (depth : Nat) (s : State) :
    (takeAck p depth s).now = s.now ∧ (takeAck p depth s).pending = s.pending ∧ (takeAck p depth s).rst = s.rst ∧ (takeAck p depth s).inh = s.inh ∧ (takeAck p depth s).ntc = s.ntc ∧ (takeAck p depth s).pwait = s.pwait ∧ (takeAck p depth s).spb = s.spb ∧ (takeAck p depth s).pd = s.pd ∧ (takeAck p depth s).kdNext = s.kdNext ∧ (takeAck p depth s).mem = s.mem ∧ (takeAck p depth s).arb = s.arb ∧ (takeAck p depth s).ring = s.ring ∧ (takeAck p depth s).track = s.track ∧ (takeAck p depth s).clock = s.clock ∧ (takeAck p depth s).expr = s.expr ∧ (takeAck p depth s).sched = s.sched ∧ (takeAck p depth s).fire = s.fire ∧ (takeAck p depth s).keys = s.keys ∧ (takeAck p depth s).heat = s.heat ∧ (takeAck p depth s).cue = s.cue ∧ (takeAck p depth s).shadow = s.shadow ∧ (takeAck p depth s).report = s.report := by
  unfold takeAck
  (repeat' split) <;> simp

@[simp] theorem retransfer_keeps (f : Frame) (s : State) :
    (retransfer f s).now = s.now ∧ (retransfer f s).pending = s.pending ∧ (retransfer f s).rst = s.rst ∧ (retransfer f s).inh = s.inh ∧ (retransfer f s).ntc = s.ntc ∧ (retransfer f s).pwait = s.pwait ∧ (retransfer f s).spb = s.spb ∧ (retransfer f s).pd = s.pd ∧ (retransfer f s).kdNext = s.kdNext ∧ (retransfer f s).mem = s.mem ∧ (retransfer f s).arb = s.arb ∧ (retransfer f s).ring = s.ring ∧ (retransfer f s).track = s.track ∧ (retransfer f s).clock = s.clock ∧ (retransfer f s).expr = s.expr ∧ (retransfer f s).sched = s.sched ∧ (retransfer f s).fire = s.fire ∧ (retransfer f s).keys = s.keys ∧ (retransfer f s).heat = s.heat ∧ (retransfer f s).cue = s.cue ∧ (retransfer f s).shadow = s.shadow := by
  unfold retransfer
  dsimp only
  (repeat' split) <;> simp

@[simp] theorem takeNak_keeps (p : Pedal) (depth : Nat) (s : State) :
    (takeNak p depth s).now = s.now ∧ (takeNak p depth s).pending = s.pending ∧ (takeNak p depth s).rst = s.rst ∧ (takeNak p depth s).inh = s.inh ∧ (takeNak p depth s).ntc = s.ntc ∧ (takeNak p depth s).pwait = s.pwait ∧ (takeNak p depth s).spb = s.spb ∧ (takeNak p depth s).pd = s.pd ∧ (takeNak p depth s).kdNext = s.kdNext ∧ (takeNak p depth s).mem = s.mem ∧ (takeNak p depth s).arb = s.arb ∧ (takeNak p depth s).ring = s.ring ∧ (takeNak p depth s).track = s.track ∧ (takeNak p depth s).clock = s.clock ∧ (takeNak p depth s).expr = s.expr ∧ (takeNak p depth s).sched = s.sched ∧ (takeNak p depth s).fire = s.fire ∧ (takeNak p depth s).keys = s.keys ∧ (takeNak p depth s).heat = s.heat ∧ (takeNak p depth s).cue = s.cue ∧ (takeNak p depth s).shadow = s.shadow := by
  unfold takeNak
  (repeat' split) <;> simp

@[simp] theorem sostenutoArrives_keeps (depth : Nat) (s : State) :
    (sostenutoArrives depth s).now = s.now ∧ (sostenutoArrives depth s).pending = s.pending ∧ (sostenutoArrives depth s).rst = s.rst ∧ (sostenutoArrives depth s).inh = s.inh ∧ (sostenutoArrives depth s).ntc = s.ntc ∧ (sostenutoArrives depth s).pwait = s.pwait ∧ (sostenutoArrives depth s).spb = s.spb ∧ (sostenutoArrives depth s).pd = s.pd ∧ (sostenutoArrives depth s).kdNext = s.kdNext ∧ (sostenutoArrives depth s).mem = s.mem ∧ (sostenutoArrives depth s).arb = s.arb ∧ (sostenutoArrives depth s).ring = s.ring ∧ (sostenutoArrives depth s).track = s.track ∧ (sostenutoArrives depth s).clock = s.clock ∧ (sostenutoArrives depth s).expr = s.expr ∧ (sostenutoArrives depth s).sched = s.sched ∧ (sostenutoArrives depth s).fire = s.fire ∧ (sostenutoArrives depth s).keys = s.keys ∧ (sostenutoArrives depth s).heat = s.heat ∧ (sostenutoArrives depth s).cue = s.cue ∧ (sostenutoArrives depth s).shadow = s.shadow := by
  unfold sostenutoArrives
  (repeat' split) <;> simp

@[simp] theorem returnToZero_keeps (p : Pedal) (depth : Nat) (s : State) :
    (returnToZero p depth s).now = s.now ∧ (returnToZero p depth s).pending = s.pending ∧ (returnToZero p depth s).rst = s.rst ∧ (returnToZero p depth s).inh = s.inh ∧ (returnToZero p depth s).ntc = s.ntc ∧ (returnToZero p depth s).pwait = s.pwait ∧ (returnToZero p depth s).spb = s.spb ∧ (returnToZero p depth s).pd = s.pd ∧ (returnToZero p depth s).kdNext = s.kdNext ∧ (returnToZero p depth s).mem = s.mem ∧ (returnToZero p depth s).arb = s.arb ∧ (returnToZero p depth s).ring = s.ring ∧ (returnToZero p depth s).track = s.track ∧ (returnToZero p depth s).clock = s.clock ∧ (returnToZero p depth s).expr = s.expr ∧ (returnToZero p depth s).sched = s.sched ∧ (returnToZero p depth s).fire = s.fire ∧ (returnToZero p depth s).keys = s.keys ∧ (returnToZero p depth s).heat = s.heat ∧ (returnToZero p depth s).cue = s.cue ∧ (returnToZero p depth s).shadow = s.shadow ∧ (returnToZero p depth s).report = s.report := by
  unfold returnToZero
  (repeat' split) <;> simp

@[simp] theorem takeArrived_keeps (p : Pedal) (depth : Nat) (s : State) :
    (takeArrived p depth s).now = s.now ∧ (takeArrived p depth s).pending = s.pending ∧ (takeArrived p depth s).rst = s.rst ∧ (takeArrived p depth s).inh = s.inh ∧ (takeArrived p depth s).ntc = s.ntc ∧ (takeArrived p depth s).pwait = s.pwait ∧ (takeArrived p depth s).spb = s.spb ∧ (takeArrived p depth s).pd = s.pd ∧ (takeArrived p depth s).kdNext = s.kdNext ∧ (takeArrived p depth s).mem = s.mem ∧ (takeArrived p depth s).arb = s.arb ∧ (takeArrived p depth s).ring = s.ring ∧ (takeArrived p depth s).track = s.track ∧ (takeArrived p depth s).clock = s.clock ∧ (takeArrived p depth s).expr = s.expr ∧ (takeArrived p depth s).sched = s.sched ∧ (takeArrived p depth s).fire = s.fire ∧ (takeArrived p depth s).keys = s.keys ∧ (takeArrived p depth s).heat = s.heat ∧ (takeArrived p depth s).cue = s.cue ∧ (takeArrived p depth s).shadow = s.shadow := by
  unfold takeArrived
  dsimp only
  (repeat' split) <;> simp

@[simp] theorem takeFrame_keeps (b1 b2 b3 : Byte) (s : State) :
    (takeFrame b1 b2 b3 s).now = s.now ∧ (takeFrame b1 b2 b3 s).pending = s.pending ∧ (takeFrame b1 b2 b3 s).rst = s.rst ∧ (takeFrame b1 b2 b3 s).inh = s.inh ∧ (takeFrame b1 b2 b3 s).ntc = s.ntc ∧ (takeFrame b1 b2 b3 s).pwait = s.pwait ∧ (takeFrame b1 b2 b3 s).spb = s.spb ∧ (takeFrame b1 b2 b3 s).pd = s.pd ∧ (takeFrame b1 b2 b3 s).kdNext = s.kdNext ∧ (takeFrame b1 b2 b3 s).mem = s.mem ∧ (takeFrame b1 b2 b3 s).arb = s.arb ∧ (takeFrame b1 b2 b3 s).ring = s.ring ∧ (takeFrame b1 b2 b3 s).track = s.track ∧ (takeFrame b1 b2 b3 s).clock = s.clock ∧ (takeFrame b1 b2 b3 s).expr = s.expr ∧ (takeFrame b1 b2 b3 s).sched = s.sched ∧ (takeFrame b1 b2 b3 s).fire = s.fire ∧ (takeFrame b1 b2 b3 s).keys = s.keys ∧ (takeFrame b1 b2 b3 s).heat = s.heat ∧ (takeFrame b1 b2 b3 s).cue = s.cue ∧ (takeFrame b1 b2 b3 s).shadow = s.shadow := by
  unfold takeFrame
  (repeat' split) <;> simp

@[simp] theorem assemble_keeps (bytes : List Byte) (s : State) :
    (assemble bytes s).now = s.now ∧ (assemble bytes s).pending = s.pending ∧ (assemble bytes s).rst = s.rst ∧ (assemble bytes s).inh = s.inh ∧ (assemble bytes s).ntc = s.ntc ∧ (assemble bytes s).pwait = s.pwait ∧ (assemble bytes s).spb = s.spb ∧ (assemble bytes s).pd = s.pd ∧ (assemble bytes s).kdNext = s.kdNext ∧ (assemble bytes s).mem = s.mem ∧ (assemble bytes s).arb = s.arb ∧ (assemble bytes s).ring = s.ring ∧ (assemble bytes s).track = s.track ∧ (assemble bytes s).clock = s.clock ∧ (assemble bytes s).expr = s.expr ∧ (assemble bytes s).sched = s.sched ∧ (assemble bytes s).fire = s.fire ∧ (assemble bytes s).keys = s.keys ∧ (assemble bytes s).heat = s.heat ∧ (assemble bytes s).cue = s.cue ∧ (assemble bytes s).shadow = s.shadow := by
  unfold assemble
  (repeat' split) <;> simp

@[simp] theorem receiveByte_keeps (b : Byte) (s : State) :
    (receiveByte b s).now = s.now ∧ (receiveByte b s).pending = s.pending ∧ (receiveByte b s).rst = s.rst ∧ (receiveByte b s).inh = s.inh ∧ (receiveByte b s).ntc = s.ntc ∧ (receiveByte b s).pwait = s.pwait ∧ (receiveByte b s).spb = s.spb ∧ (receiveByte b s).pd = s.pd ∧ (receiveByte b s).kdNext = s.kdNext ∧ (receiveByte b s).mem = s.mem ∧ (receiveByte b s).arb = s.arb ∧ (receiveByte b s).ring = s.ring ∧ (receiveByte b s).track = s.track ∧ (receiveByte b s).clock = s.clock ∧ (receiveByte b s).expr = s.expr ∧ (receiveByte b s).sched = s.sched ∧ (receiveByte b s).fire = s.fire ∧ (receiveByte b s).keys = s.keys ∧ (receiveByte b s).heat = s.heat ∧ (receiveByte b s).cue = s.cue ∧ (receiveByte b s).shadow = s.shadow := by
  unfold receiveByte
  (repeat' split) <;> simp

@[simp] theorem receiveFrame_keeps (bytes : List Byte) (s : State) :
    (receiveFrame bytes s).now = s.now ∧ (receiveFrame bytes s).pending = s.pending ∧ (receiveFrame bytes s).rst = s.rst ∧ (receiveFrame bytes s).inh = s.inh ∧ (receiveFrame bytes s).ntc = s.ntc ∧ (receiveFrame bytes s).pwait = s.pwait ∧ (receiveFrame bytes s).spb = s.spb ∧ (receiveFrame bytes s).pd = s.pd ∧ (receiveFrame bytes s).kdNext = s.kdNext ∧ (receiveFrame bytes s).mem = s.mem ∧ (receiveFrame bytes s).arb = s.arb ∧ (receiveFrame bytes s).ring = s.ring ∧ (receiveFrame bytes s).track = s.track ∧ (receiveFrame bytes s).clock = s.clock ∧ (receiveFrame bytes s).expr = s.expr ∧ (receiveFrame bytes s).sched = s.sched ∧ (receiveFrame bytes s).fire = s.fire ∧ (receiveFrame bytes s).keys = s.keys ∧ (receiveFrame bytes s).heat = s.heat ∧ (receiveFrame bytes s).cue = s.cue ∧ (receiveFrame bytes s).shadow = s.shadow := by
  unfold receiveFrame
  dsimp only
  (repeat' split) <;> simp

@[simp] theorem initPedals_keeps (s : State) :
    (initPedals s).now = s.now ∧ (initPedals s).pending = s.pending ∧ (initPedals s).rst = s.rst ∧ (initPedals s).inh = s.inh ∧ (initPedals s).ntc = s.ntc ∧ (initPedals s).pwait = s.pwait ∧ (initPedals s).spb = s.spb ∧ (initPedals s).pd = s.pd ∧ (initPedals s).kdNext = s.kdNext ∧ (initPedals s).mem = s.mem ∧ (initPedals s).arb = s.arb ∧ (initPedals s).ring = s.ring ∧ (initPedals s).track = s.track ∧ (initPedals s).clock = s.clock ∧ (initPedals s).expr = s.expr ∧ (initPedals s).sched = s.sched ∧ (initPedals s).fire = s.fire ∧ (initPedals s).keys = s.keys ∧ (initPedals s).heat = s.heat ∧ (initPedals s).cue = s.cue ∧ (initPedals s).shadow = s.shadow ∧ (initPedals s).report = s.report := by
  unfold initPedals
  simp [allPedals, List.foldl]

end Sys2Proof.Machine
end

