-- ==== Sys2Proof/Laws/KeepSchedule.lean ====
section
/-! SUPPORT. What the schedule operations keep: one lemma for each operation, the fields of State it leaves alone. -/

namespace Sys2Proof.Machine

@[simp] theorem reportFull_keeps (e : Entry) (s : State) :
    (reportFull e s).now = s.now ∧ (reportFull e s).pending = s.pending ∧ (reportFull e s).rst = s.rst ∧ (reportFull e s).inh = s.inh ∧ (reportFull e s).ntc = s.ntc ∧ (reportFull e s).pwait = s.pwait ∧ (reportFull e s).spb = s.spb ∧ (reportFull e s).pd = s.pd ∧ (reportFull e s).kdNext = s.kdNext ∧ (reportFull e s).mem = s.mem ∧ (reportFull e s).arb = s.arb ∧ (reportFull e s).ring = s.ring ∧ (reportFull e s).track = s.track ∧ (reportFull e s).clock = s.clock ∧ (reportFull e s).expr = s.expr ∧ (reportFull e s).sched = s.sched ∧ (reportFull e s).fire = s.fire ∧ (reportFull e s).keys = s.keys ∧ (reportFull e s).heat = s.heat ∧ (reportFull e s).pedals = s.pedals ∧ (reportFull e s).cue = s.cue ∧ (reportFull e s).shadow = s.shadow := by
  unfold reportFull
  (repeat' split) <;> simp

@[simp] theorem insertSched_keeps (e : Entry) (s : State) :
    (insertSched e s).now = s.now ∧ (insertSched e s).pending = s.pending ∧ (insertSched e s).rst = s.rst ∧ (insertSched e s).inh = s.inh ∧ (insertSched e s).ntc = s.ntc ∧ (insertSched e s).pwait = s.pwait ∧ (insertSched e s).spb = s.spb ∧ (insertSched e s).pd = s.pd ∧ (insertSched e s).kdNext = s.kdNext ∧ (insertSched e s).mem = s.mem ∧ (insertSched e s).arb = s.arb ∧ (insertSched e s).ring = s.ring ∧ (insertSched e s).track = s.track ∧ (insertSched e s).clock = s.clock ∧ (insertSched e s).expr = s.expr ∧ (insertSched e s).fire = s.fire ∧ (insertSched e s).keys = s.keys ∧ (insertSched e s).heat = s.heat ∧ (insertSched e s).pedals = s.pedals ∧ (insertSched e s).cue = s.cue ∧ (insertSched e s).shadow = s.shadow ∧ (insertSched e s).report = s.report := by
  unfold insertSched
  (repeat' split) <;> simp

@[simp] theorem dispatchEntry_keeps (e : Entry) (s : State) :
    (dispatchEntry e s).now = s.now ∧ (dispatchEntry e s).pending = s.pending ∧ (dispatchEntry e s).rst = s.rst ∧ (dispatchEntry e s).inh = s.inh ∧ (dispatchEntry e s).ntc = s.ntc ∧ (dispatchEntry e s).pwait = s.pwait ∧ (dispatchEntry e s).spb = s.spb ∧ (dispatchEntry e s).pd = s.pd ∧ (dispatchEntry e s).kdNext = s.kdNext ∧ (dispatchEntry e s).mem = s.mem ∧ (dispatchEntry e s).arb = s.arb ∧ (dispatchEntry e s).ring = s.ring ∧ (dispatchEntry e s).track = s.track ∧ (dispatchEntry e s).clock = s.clock ∧ (dispatchEntry e s).expr = s.expr ∧ (dispatchEntry e s).heat = s.heat ∧ (dispatchEntry e s).cue = s.cue ∧ (dispatchEntry e s).shadow = s.shadow := by
  unfold dispatchEntry
  (repeat' split) <;> simp

@[simp] theorem dropMove_keeps (p : Pedal) (s : State) :
    (dropMove p s).now = s.now ∧ (dropMove p s).pending = s.pending ∧ (dropMove p s).rst = s.rst ∧ (dropMove p s).inh = s.inh ∧ (dropMove p s).ntc = s.ntc ∧ (dropMove p s).pwait = s.pwait ∧ (dropMove p s).spb = s.spb ∧ (dropMove p s).pd = s.pd ∧ (dropMove p s).kdNext = s.kdNext ∧ (dropMove p s).mem = s.mem ∧ (dropMove p s).arb = s.arb ∧ (dropMove p s).ring = s.ring ∧ (dropMove p s).track = s.track ∧ (dropMove p s).clock = s.clock ∧ (dropMove p s).expr = s.expr ∧ (dropMove p s).fire = s.fire ∧ (dropMove p s).keys = s.keys ∧ (dropMove p s).heat = s.heat ∧ (dropMove p s).pedals = s.pedals ∧ (dropMove p s).cue = s.cue ∧ (dropMove p s).shadow = s.shadow ∧ (dropMove p s).report = s.report := by
  unfold dropMove
  (repeat' split) <;> simp

@[simp] theorem makeDueEntry_keeps (e : Entry) (s : State) :
    (makeDueEntry e s).now = s.now ∧ (makeDueEntry e s).pending = s.pending ∧ (makeDueEntry e s).rst = s.rst ∧ (makeDueEntry e s).inh = s.inh ∧ (makeDueEntry e s).ntc = s.ntc ∧ (makeDueEntry e s).pwait = s.pwait ∧ (makeDueEntry e s).spb = s.spb ∧ (makeDueEntry e s).pd = s.pd ∧ (makeDueEntry e s).kdNext = s.kdNext ∧ (makeDueEntry e s).mem = s.mem ∧ (makeDueEntry e s).arb = s.arb ∧ (makeDueEntry e s).ring = s.ring ∧ (makeDueEntry e s).track = s.track ∧ (makeDueEntry e s).clock = s.clock ∧ (makeDueEntry e s).expr = s.expr ∧ (makeDueEntry e s).heat = s.heat ∧ (makeDueEntry e s).cue = s.cue ∧ (makeDueEntry e s).shadow = s.shadow := by
  unfold makeDueEntry
  (repeat' split) <;> simp

@[simp] theorem makeIntoFull_keeps (e : Entry) (s : State) :
    (makeIntoFull e s).now = s.now ∧ (makeIntoFull e s).pending = s.pending ∧ (makeIntoFull e s).rst = s.rst ∧ (makeIntoFull e s).inh = s.inh ∧ (makeIntoFull e s).ntc = s.ntc ∧ (makeIntoFull e s).pwait = s.pwait ∧ (makeIntoFull e s).spb = s.spb ∧ (makeIntoFull e s).pd = s.pd ∧ (makeIntoFull e s).kdNext = s.kdNext ∧ (makeIntoFull e s).mem = s.mem ∧ (makeIntoFull e s).arb = s.arb ∧ (makeIntoFull e s).ring = s.ring ∧ (makeIntoFull e s).track = s.track ∧ (makeIntoFull e s).clock = s.clock ∧ (makeIntoFull e s).expr = s.expr ∧ (makeIntoFull e s).heat = s.heat ∧ (makeIntoFull e s).cue = s.cue ∧ (makeIntoFull e s).shadow = s.shadow := by
  unfold makeIntoFull
  (repeat' split) <;> simp

@[simp] theorem makeEntry_keeps (e : Entry) (s : State) :
    (makeEntry e s).now = s.now ∧ (makeEntry e s).pending = s.pending ∧ (makeEntry e s).rst = s.rst ∧ (makeEntry e s).inh = s.inh ∧ (makeEntry e s).ntc = s.ntc ∧ (makeEntry e s).pwait = s.pwait ∧ (makeEntry e s).spb = s.spb ∧ (makeEntry e s).pd = s.pd ∧ (makeEntry e s).kdNext = s.kdNext ∧ (makeEntry e s).mem = s.mem ∧ (makeEntry e s).arb = s.arb ∧ (makeEntry e s).ring = s.ring ∧ (makeEntry e s).track = s.track ∧ (makeEntry e s).clock = s.clock ∧ (makeEntry e s).expr = s.expr ∧ (makeEntry e s).heat = s.heat ∧ (makeEntry e s).cue = s.cue ∧ (makeEntry e s).shadow = s.shadow := by
  unfold makeEntry
  (repeat' split) <;> simp

@[simp] theorem dispatchLoop_keeps (n : Nat) (s : State) :
    (dispatchLoop n s).now = s.now ∧ (dispatchLoop n s).pending = s.pending ∧ (dispatchLoop n s).rst = s.rst ∧ (dispatchLoop n s).inh = s.inh ∧ (dispatchLoop n s).ntc = s.ntc ∧ (dispatchLoop n s).pwait = s.pwait ∧ (dispatchLoop n s).spb = s.spb ∧ (dispatchLoop n s).pd = s.pd ∧ (dispatchLoop n s).kdNext = s.kdNext ∧ (dispatchLoop n s).mem = s.mem ∧ (dispatchLoop n s).arb = s.arb ∧ (dispatchLoop n s).ring = s.ring ∧ (dispatchLoop n s).track = s.track ∧ (dispatchLoop n s).clock = s.clock ∧ (dispatchLoop n s).expr = s.expr ∧ (dispatchLoop n s).heat = s.heat ∧ (dispatchLoop n s).cue = s.cue ∧ (dispatchLoop n s).shadow = s.shadow := by
  induction n generalizing s with
  | zero => simp [dispatchLoop]
  | succ n ih => unfold dispatchLoop; (repeat' split) <;> simp [ih]

end Sys2Proof.Machine
end

