-- ==== Sys2Proof/Laws/KeepClock.lean ====
section
/-! SUPPORT. What the Roll Clock and Cue Unit operations keep: one lemma for each operation, the fields of State it leaves alone. -/

namespace Sys2Proof.Machine

@[simp] theorem enterHeld_keeps (c : Cause) (s : State) :
    (enterHeld c s).now = s.now ∧ (enterHeld c s).pending = s.pending ∧ (enterHeld c s).rst = s.rst ∧ (enterHeld c s).inh = s.inh ∧ (enterHeld c s).ntc = s.ntc ∧ (enterHeld c s).pwait = s.pwait ∧ (enterHeld c s).spb = s.spb ∧ (enterHeld c s).pd = s.pd ∧ (enterHeld c s).kdNext = s.kdNext ∧ (enterHeld c s).mem = s.mem ∧ (enterHeld c s).arb = s.arb ∧ (enterHeld c s).ring = s.ring ∧ (enterHeld c s).track = s.track ∧ (enterHeld c s).expr = s.expr ∧ (enterHeld c s).sched = s.sched ∧ (enterHeld c s).fire = s.fire ∧ (enterHeld c s).keys = s.keys ∧ (enterHeld c s).heat = s.heat ∧ (enterHeld c s).pedals = s.pedals ∧ (enterHeld c s).cue = s.cue ∧ (enterHeld c s).shadow = s.shadow := by
  unfold enterHeld
  (repeat' split) <;> simp

@[simp] theorem pendHold_keeps (c : Cause) (s : State) :
    (pendHold c s).now = s.now ∧ (pendHold c s).pending = s.pending ∧ (pendHold c s).rst = s.rst ∧ (pendHold c s).inh = s.inh ∧ (pendHold c s).ntc = s.ntc ∧ (pendHold c s).pwait = s.pwait ∧ (pendHold c s).spb = s.spb ∧ (pendHold c s).pd = s.pd ∧ (pendHold c s).kdNext = s.kdNext ∧ (pendHold c s).mem = s.mem ∧ (pendHold c s).arb = s.arb ∧ (pendHold c s).ring = s.ring ∧ (pendHold c s).track = s.track ∧ (pendHold c s).expr = s.expr ∧ (pendHold c s).sched = s.sched ∧ (pendHold c s).fire = s.fire ∧ (pendHold c s).keys = s.keys ∧ (pendHold c s).heat = s.heat ∧ (pendHold c s).pedals = s.pedals ∧ (pendHold c s).cue = s.cue ∧ (pendHold c s).shadow = s.shadow ∧ (pendHold c s).report = s.report ∧ (pendHold c s).updates = s.updates := by
  unfold pendHold
  (repeat' split) <;> simp

@[simp] theorem requestHold_keeps (c : Cause) (s : State) :
    (requestHold c s).now = s.now ∧ (requestHold c s).pending = s.pending ∧ (requestHold c s).rst = s.rst ∧ (requestHold c s).inh = s.inh ∧ (requestHold c s).ntc = s.ntc ∧ (requestHold c s).pwait = s.pwait ∧ (requestHold c s).spb = s.spb ∧ (requestHold c s).pd = s.pd ∧ (requestHold c s).kdNext = s.kdNext ∧ (requestHold c s).mem = s.mem ∧ (requestHold c s).arb = s.arb ∧ (requestHold c s).ring = s.ring ∧ (requestHold c s).track = s.track ∧ (requestHold c s).expr = s.expr ∧ (requestHold c s).sched = s.sched ∧ (requestHold c s).fire = s.fire ∧ (requestHold c s).keys = s.keys ∧ (requestHold c s).heat = s.heat ∧ (requestHold c s).pedals = s.pedals ∧ (requestHold c s).cue = s.cue ∧ (requestHold c s).shadow = s.shadow := by
  unfold requestHold
  (repeat' split) <;> simp

@[simp] theorem starve_keeps (s : State) :
    (starve s).now = s.now ∧ (starve s).pending = s.pending ∧ (starve s).rst = s.rst ∧ (starve s).inh = s.inh ∧ (starve s).ntc = s.ntc ∧ (starve s).pwait = s.pwait ∧ (starve s).spb = s.spb ∧ (starve s).pd = s.pd ∧ (starve s).kdNext = s.kdNext ∧ (starve s).mem = s.mem ∧ (starve s).arb = s.arb ∧ (starve s).ring = s.ring ∧ (starve s).track = s.track ∧ (starve s).expr = s.expr ∧ (starve s).sched = s.sched ∧ (starve s).fire = s.fire ∧ (starve s).keys = s.keys ∧ (starve s).heat = s.heat ∧ (starve s).pedals = s.pedals ∧ (starve s).cue = s.cue ∧ (starve s).shadow = s.shadow := by
  unfold starve
  (repeat' split) <;> simp

@[simp] theorem startFetch_keeps (frozen : Bool) (due : Instant) (s : State) :
    (startFetch frozen due s).now = s.now ∧ (startFetch frozen due s).pending = s.pending ∧ (startFetch frozen due s).rst = s.rst ∧ (startFetch frozen due s).inh = s.inh ∧ (startFetch frozen due s).ntc = s.ntc ∧ (startFetch frozen due s).pwait = s.pwait ∧ (startFetch frozen due s).spb = s.spb ∧ (startFetch frozen due s).pd = s.pd ∧ (startFetch frozen due s).kdNext = s.kdNext ∧ (startFetch frozen due s).mem = s.mem ∧ (startFetch frozen due s).arb = s.arb ∧ (startFetch frozen due s).track = s.track ∧ (startFetch frozen due s).expr = s.expr ∧ (startFetch frozen due s).sched = s.sched ∧ (startFetch frozen due s).fire = s.fire ∧ (startFetch frozen due s).keys = s.keys ∧ (startFetch frozen due s).heat = s.heat ∧ (startFetch frozen due s).pedals = s.pedals ∧ (startFetch frozen due s).cue = s.cue ∧ (startFetch frozen due s).shadow = s.shadow ∧ (startFetch frozen due s).report = s.report ∧ (startFetch frozen due s).updates = s.updates := by
  unfold startFetch
  (repeat' split) <;> simp

@[simp] theorem requestFetch_keeps (frozen : Bool) (due : Instant) (s : State) :
    (requestFetch frozen due s).now = s.now ∧ (requestFetch frozen due s).pending = s.pending ∧ (requestFetch frozen due s).rst = s.rst ∧ (requestFetch frozen due s).inh = s.inh ∧ (requestFetch frozen due s).ntc = s.ntc ∧ (requestFetch frozen due s).pwait = s.pwait ∧ (requestFetch frozen due s).spb = s.spb ∧ (requestFetch frozen due s).pd = s.pd ∧ (requestFetch frozen due s).kdNext = s.kdNext ∧ (requestFetch frozen due s).mem = s.mem ∧ (requestFetch frozen due s).arb = s.arb ∧ (requestFetch frozen due s).track = s.track ∧ (requestFetch frozen due s).expr = s.expr ∧ (requestFetch frozen due s).sched = s.sched ∧ (requestFetch frozen due s).fire = s.fire ∧ (requestFetch frozen due s).keys = s.keys ∧ (requestFetch frozen due s).heat = s.heat ∧ (requestFetch frozen due s).pedals = s.pedals ∧ (requestFetch frozen due s).cue = s.cue ∧ (requestFetch frozen due s).shadow = s.shadow := by
  unfold requestFetch
  (repeat' split) <;> simp

@[simp] theorem setNextDue_keeps (t : Instant) (s : State) :
    (setNextDue t s).now = s.now ∧ (setNextDue t s).pending = s.pending ∧ (setNextDue t s).rst = s.rst ∧ (setNextDue t s).inh = s.inh ∧ (setNextDue t s).ntc = s.ntc ∧ (setNextDue t s).pwait = s.pwait ∧ (setNextDue t s).spb = s.spb ∧ (setNextDue t s).pd = s.pd ∧ (setNextDue t s).kdNext = s.kdNext ∧ (setNextDue t s).mem = s.mem ∧ (setNextDue t s).arb = s.arb ∧ (setNextDue t s).ring = s.ring ∧ (setNextDue t s).track = s.track ∧ (setNextDue t s).expr = s.expr ∧ (setNextDue t s).sched = s.sched ∧ (setNextDue t s).fire = s.fire ∧ (setNextDue t s).keys = s.keys ∧ (setNextDue t s).heat = s.heat ∧ (setNextDue t s).pedals = s.pedals ∧ (setNextDue t s).cue = s.cue ∧ (setNextDue t s).shadow = s.shadow ∧ (setNextDue t s).report = s.report ∧ (setNextDue t s).updates = s.updates := by
  unfold setNextDue
  (repeat' split) <;> simp

@[simp] theorem takeDue_keeps (t : Instant) (s : State) :
    (takeDue t s).now = s.now ∧ (takeDue t s).pending = s.pending ∧ (takeDue t s).rst = s.rst ∧ (takeDue t s).inh = s.inh ∧ (takeDue t s).ntc = s.ntc ∧ (takeDue t s).pwait = s.pwait ∧ (takeDue t s).spb = s.spb ∧ (takeDue t s).pd = s.pd ∧ (takeDue t s).kdNext = s.kdNext ∧ (takeDue t s).mem = s.mem ∧ (takeDue t s).arb = s.arb ∧ (takeDue t s).track = s.track ∧ (takeDue t s).expr = s.expr ∧ (takeDue t s).sched = s.sched ∧ (takeDue t s).fire = s.fire ∧ (takeDue t s).keys = s.keys ∧ (takeDue t s).heat = s.heat ∧ (takeDue t s).pedals = s.pedals ∧ (takeDue t s).cue = s.cue ∧ (takeDue t s).shadow = s.shadow := by
  unfold takeDue
  (repeat' split) <;> simp

@[simp] theorem feed_keeps (s : State) :
    (feed s).now = s.now ∧ (feed s).pending = s.pending ∧ (feed s).rst = s.rst ∧ (feed s).inh = s.inh ∧ (feed s).ntc = s.ntc ∧ (feed s).pwait = s.pwait ∧ (feed s).spb = s.spb ∧ (feed s).pd = s.pd ∧ (feed s).kdNext = s.kdNext ∧ (feed s).mem = s.mem ∧ (feed s).arb = s.arb ∧ (feed s).track = s.track ∧ (feed s).expr = s.expr ∧ (feed s).sched = s.sched ∧ (feed s).fire = s.fire ∧ (feed s).keys = s.keys ∧ (feed s).heat = s.heat ∧ (feed s).pedals = s.pedals ∧ (feed s).cue = s.cue ∧ (feed s).shadow = s.shadow := by
  unfold feed
  (repeat' split) <;> simp

@[simp] theorem clearStep_keeps (s : State) :
    (clearStep s).now = s.now ∧ (clearStep s).pending = s.pending ∧ (clearStep s).rst = s.rst ∧ (clearStep s).inh = s.inh ∧ (clearStep s).ntc = s.ntc ∧ (clearStep s).pwait = s.pwait ∧ (clearStep s).spb = s.spb ∧ (clearStep s).pd = s.pd ∧ (clearStep s).kdNext = s.kdNext ∧ (clearStep s).mem = s.mem ∧ (clearStep s).arb = s.arb ∧ (clearStep s).ring = s.ring ∧ (clearStep s).track = s.track ∧ (clearStep s).expr = s.expr ∧ (clearStep s).sched = s.sched ∧ (clearStep s).fire = s.fire ∧ (clearStep s).keys = s.keys ∧ (clearStep s).heat = s.heat ∧ (clearStep s).pedals = s.pedals ∧ (clearStep s).cue = s.cue ∧ (clearStep s).shadow = s.shadow ∧ (clearStep s).report = s.report ∧ (clearStep s).updates = s.updates := by
  unfold clearStep
  (repeat' split) <;> simp

@[simp] theorem enterEnding_keeps (s : State) :
    (enterEnding s).now = s.now ∧ (enterEnding s).pending = s.pending ∧ (enterEnding s).rst = s.rst ∧ (enterEnding s).inh = s.inh ∧ (enterEnding s).ntc = s.ntc ∧ (enterEnding s).pwait = s.pwait ∧ (enterEnding s).spb = s.spb ∧ (enterEnding s).pd = s.pd ∧ (enterEnding s).kdNext = s.kdNext ∧ (enterEnding s).mem = s.mem ∧ (enterEnding s).arb = s.arb ∧ (enterEnding s).ring = s.ring ∧ (enterEnding s).track = s.track ∧ (enterEnding s).expr = s.expr ∧ (enterEnding s).sched = s.sched ∧ (enterEnding s).fire = s.fire ∧ (enterEnding s).keys = s.keys ∧ (enterEnding s).heat = s.heat ∧ (enterEnding s).pedals = s.pedals ∧ (enterEnding s).cue = s.cue ∧ (enterEnding s).shadow = s.shadow := by
  unfold enterEnding
  (repeat' split) <;> simp

@[simp] theorem enterReady_keeps (c : Cause) (s : State) :
    (enterReady c s).now = s.now ∧ (enterReady c s).pending = s.pending ∧ (enterReady c s).rst = s.rst ∧ (enterReady c s).inh = s.inh ∧ (enterReady c s).ntc = s.ntc ∧ (enterReady c s).pwait = s.pwait ∧ (enterReady c s).spb = s.spb ∧ (enterReady c s).pd = s.pd ∧ (enterReady c s).kdNext = s.kdNext ∧ (enterReady c s).mem = s.mem ∧ (enterReady c s).arb = s.arb ∧ (enterReady c s).track = s.track ∧ (enterReady c s).expr = s.expr ∧ (enterReady c s).sched = s.sched ∧ (enterReady c s).fire = s.fire ∧ (enterReady c s).keys = s.keys ∧ (enterReady c s).heat = s.heat ∧ (enterReady c s).pedals = s.pedals ∧ (enterReady c s).cue = s.cue ∧ (enterReady c s).shadow = s.shadow := by
  unfold enterReady
  (repeat' split) <;> simp

@[simp] theorem abandonLine_keeps (s : State) :
    (abandonLine s).now = s.now ∧ (abandonLine s).pending = s.pending ∧ (abandonLine s).rst = s.rst ∧ (abandonLine s).inh = s.inh ∧ (abandonLine s).ntc = s.ntc ∧ (abandonLine s).pwait = s.pwait ∧ (abandonLine s).spb = s.spb ∧ (abandonLine s).pd = s.pd ∧ (abandonLine s).kdNext = s.kdNext ∧ (abandonLine s).mem = s.mem ∧ (abandonLine s).expr = s.expr ∧ (abandonLine s).sched = s.sched ∧ (abandonLine s).fire = s.fire ∧ (abandonLine s).keys = s.keys ∧ (abandonLine s).heat = s.heat ∧ (abandonLine s).pedals = s.pedals ∧ (abandonLine s).shadow = s.shadow ∧ (abandonLine s).report = s.report := by
  unfold abandonLine
  (repeat' split) <;> simp

@[simp] theorem stopClock_keeps (s : State) :
    (stopClock s).now = s.now ∧ (stopClock s).pending = s.pending ∧ (stopClock s).rst = s.rst ∧ (stopClock s).inh = s.inh ∧ (stopClock s).ntc = s.ntc ∧ (stopClock s).pwait = s.pwait ∧ (stopClock s).spb = s.spb ∧ (stopClock s).pd = s.pd ∧ (stopClock s).kdNext = s.kdNext ∧ (stopClock s).mem = s.mem ∧ (stopClock s).expr = s.expr ∧ (stopClock s).heat = s.heat ∧ (stopClock s).pedals = s.pedals ∧ (stopClock s).shadow = s.shadow ∧ (stopClock s).report = s.report := by
  unfold stopClock
  (repeat' split) <;> simp

@[simp] theorem enterStopping_keeps (c : Cause) (s : State) :
    (enterStopping c s).now = s.now ∧ (enterStopping c s).pending = s.pending ∧ (enterStopping c s).rst = s.rst ∧ (enterStopping c s).inh = s.inh ∧ (enterStopping c s).ntc = s.ntc ∧ (enterStopping c s).pwait = s.pwait ∧ (enterStopping c s).spb = s.spb ∧ (enterStopping c s).pd = s.pd ∧ (enterStopping c s).kdNext = s.kdNext ∧ (enterStopping c s).mem = s.mem ∧ (enterStopping c s).expr = s.expr ∧ (enterStopping c s).heat = s.heat ∧ (enterStopping c s).shadow = s.shadow ∧ (enterStopping c s).report = s.report := by
  unfold enterStopping
  (repeat' split) <;> simp

@[simp] theorem enterSilence_keeps (s : State) :
    (enterSilence s).now = s.now ∧ (enterSilence s).pending = s.pending ∧ (enterSilence s).rst = s.rst ∧ (enterSilence s).inh = s.inh ∧ (enterSilence s).ntc = s.ntc ∧ (enterSilence s).pwait = s.pwait ∧ (enterSilence s).spb = s.spb ∧ (enterSilence s).pd = s.pd ∧ (enterSilence s).kdNext = s.kdNext ∧ (enterSilence s).mem = s.mem ∧ (enterSilence s).expr = s.expr ∧ (enterSilence s).heat = s.heat ∧ (enterSilence s).shadow = s.shadow ∧ (enterSilence s).report = s.report := by
  unfold enterSilence
  (repeat' split) <;> simp

@[simp] theorem cueHold_keeps (ev : CueEvent) (c : Cause) (s : State) :
    (cueHold ev c s).now = s.now ∧ (cueHold ev c s).pending = s.pending ∧ (cueHold ev c s).rst = s.rst ∧ (cueHold ev c s).inh = s.inh ∧ (cueHold ev c s).ntc = s.ntc ∧ (cueHold ev c s).pwait = s.pwait ∧ (cueHold ev c s).spb = s.spb ∧ (cueHold ev c s).pd = s.pd ∧ (cueHold ev c s).kdNext = s.kdNext ∧ (cueHold ev c s).mem = s.mem ∧ (cueHold ev c s).arb = s.arb ∧ (cueHold ev c s).ring = s.ring ∧ (cueHold ev c s).track = s.track ∧ (cueHold ev c s).expr = s.expr ∧ (cueHold ev c s).sched = s.sched ∧ (cueHold ev c s).fire = s.fire ∧ (cueHold ev c s).keys = s.keys ∧ (cueHold ev c s).heat = s.heat ∧ (cueHold ev c s).pedals = s.pedals ∧ (cueHold ev c s).shadow = s.shadow := by
  unfold cueHold
  (repeat' split) <;> simp

@[simp] theorem flagMatch_keeps (ch : Channel) (s : State) :
    (flagMatch ch s).now = s.now ∧ (flagMatch ch s).pending = s.pending ∧ (flagMatch ch s).rst = s.rst ∧ (flagMatch ch s).inh = s.inh ∧ (flagMatch ch s).ntc = s.ntc ∧ (flagMatch ch s).pwait = s.pwait ∧ (flagMatch ch s).spb = s.spb ∧ (flagMatch ch s).pd = s.pd ∧ (flagMatch ch s).kdNext = s.kdNext ∧ (flagMatch ch s).mem = s.mem ∧ (flagMatch ch s).arb = s.arb ∧ (flagMatch ch s).ring = s.ring ∧ (flagMatch ch s).track = s.track ∧ (flagMatch ch s).clock = s.clock ∧ (flagMatch ch s).expr = s.expr ∧ (flagMatch ch s).sched = s.sched ∧ (flagMatch ch s).fire = s.fire ∧ (flagMatch ch s).keys = s.keys ∧ (flagMatch ch s).heat = s.heat ∧ (flagMatch ch s).pedals = s.pedals ∧ (flagMatch ch s).shadow = s.shadow ∧ (flagMatch ch s).report = s.report := by
  unfold flagMatch
  (repeat' split) <;> simp

@[simp] theorem cueMatch_keeps (ch : Channel) (ev : CueEvent) (detail : Word) (s : State) :
    (cueMatch ch ev detail s).now = s.now ∧ (cueMatch ch ev detail s).pending = s.pending ∧ (cueMatch ch ev detail s).rst = s.rst ∧ (cueMatch ch ev detail s).inh = s.inh ∧ (cueMatch ch ev detail s).ntc = s.ntc ∧ (cueMatch ch ev detail s).pwait = s.pwait ∧ (cueMatch ch ev detail s).spb = s.spb ∧ (cueMatch ch ev detail s).pd = s.pd ∧ (cueMatch ch ev detail s).kdNext = s.kdNext ∧ (cueMatch ch ev detail s).mem = s.mem ∧ (cueMatch ch ev detail s).arb = s.arb ∧ (cueMatch ch ev detail s).ring = s.ring ∧ (cueMatch ch ev detail s).track = s.track ∧ (cueMatch ch ev detail s).expr = s.expr ∧ (cueMatch ch ev detail s).sched = s.sched ∧ (cueMatch ch ev detail s).fire = s.fire ∧ (cueMatch ch ev detail s).keys = s.keys ∧ (cueMatch ch ev detail s).heat = s.heat ∧ (cueMatch ch ev detail s).pedals = s.pedals ∧ (cueMatch ch ev detail s).shadow = s.shadow := by
  unfold cueMatch
  dsimp only
  (repeat' split) <;> simp

@[simp] theorem beforeChannel_keeps (ch : Channel) (armed : Bool) (tag : Word) (s : State) :
    (beforeChannel ch armed tag s).now = s.now ∧ (beforeChannel ch armed tag s).pending = s.pending ∧ (beforeChannel ch armed tag s).rst = s.rst ∧ (beforeChannel ch armed tag s).inh = s.inh ∧ (beforeChannel ch armed tag s).ntc = s.ntc ∧ (beforeChannel ch armed tag s).pwait = s.pwait ∧ (beforeChannel ch armed tag s).spb = s.spb ∧ (beforeChannel ch armed tag s).pd = s.pd ∧ (beforeChannel ch armed tag s).kdNext = s.kdNext ∧ (beforeChannel ch armed tag s).mem = s.mem ∧ (beforeChannel ch armed tag s).arb = s.arb ∧ (beforeChannel ch armed tag s).ring = s.ring ∧ (beforeChannel ch armed tag s).track = s.track ∧ (beforeChannel ch armed tag s).expr = s.expr ∧ (beforeChannel ch armed tag s).sched = s.sched ∧ (beforeChannel ch armed tag s).fire = s.fire ∧ (beforeChannel ch armed tag s).keys = s.keys ∧ (beforeChannel ch armed tag s).heat = s.heat ∧ (beforeChannel ch armed tag s).pedals = s.pedals ∧ (beforeChannel ch armed tag s).shadow = s.shadow := by
  unfold beforeChannel
  (repeat' split) <;> simp

@[simp] theorem beforeTest_keeps (tag : Word) (s : State) :
    (beforeTest tag s).now = s.now ∧ (beforeTest tag s).pending = s.pending ∧ (beforeTest tag s).rst = s.rst ∧ (beforeTest tag s).inh = s.inh ∧ (beforeTest tag s).ntc = s.ntc ∧ (beforeTest tag s).pwait = s.pwait ∧ (beforeTest tag s).spb = s.spb ∧ (beforeTest tag s).pd = s.pd ∧ (beforeTest tag s).kdNext = s.kdNext ∧ (beforeTest tag s).mem = s.mem ∧ (beforeTest tag s).arb = s.arb ∧ (beforeTest tag s).ring = s.ring ∧ (beforeTest tag s).track = s.track ∧ (beforeTest tag s).expr = s.expr ∧ (beforeTest tag s).sched = s.sched ∧ (beforeTest tag s).fire = s.fire ∧ (beforeTest tag s).keys = s.keys ∧ (beforeTest tag s).heat = s.heat ∧ (beforeTest tag s).pedals = s.pedals ∧ (beforeTest tag s).shadow = s.shadow := by
  unfold beforeTest
  (repeat' split) <;> simp

@[simp] theorem afterChannel_keeps (ch : Channel) (armed : Bool) (tag : Word) (s : State) :
    (afterChannel ch armed tag s).now = s.now ∧ (afterChannel ch armed tag s).pending = s.pending ∧ (afterChannel ch armed tag s).rst = s.rst ∧ (afterChannel ch armed tag s).inh = s.inh ∧ (afterChannel ch armed tag s).ntc = s.ntc ∧ (afterChannel ch armed tag s).pwait = s.pwait ∧ (afterChannel ch armed tag s).spb = s.spb ∧ (afterChannel ch armed tag s).pd = s.pd ∧ (afterChannel ch armed tag s).kdNext = s.kdNext ∧ (afterChannel ch armed tag s).mem = s.mem ∧ (afterChannel ch armed tag s).arb = s.arb ∧ (afterChannel ch armed tag s).ring = s.ring ∧ (afterChannel ch armed tag s).track = s.track ∧ (afterChannel ch armed tag s).expr = s.expr ∧ (afterChannel ch armed tag s).sched = s.sched ∧ (afterChannel ch armed tag s).fire = s.fire ∧ (afterChannel ch armed tag s).keys = s.keys ∧ (afterChannel ch armed tag s).heat = s.heat ∧ (afterChannel ch armed tag s).pedals = s.pedals ∧ (afterChannel ch armed tag s).shadow = s.shadow := by
  unfold afterChannel
  (repeat' split) <;> simp

@[simp] theorem afterTest_keeps (tag : Word) (s : State) :
    (afterTest tag s).now = s.now ∧ (afterTest tag s).pending = s.pending ∧ (afterTest tag s).rst = s.rst ∧ (afterTest tag s).inh = s.inh ∧ (afterTest tag s).ntc = s.ntc ∧ (afterTest tag s).pwait = s.pwait ∧ (afterTest tag s).spb = s.spb ∧ (afterTest tag s).pd = s.pd ∧ (afterTest tag s).kdNext = s.kdNext ∧ (afterTest tag s).mem = s.mem ∧ (afterTest tag s).arb = s.arb ∧ (afterTest tag s).ring = s.ring ∧ (afterTest tag s).track = s.track ∧ (afterTest tag s).expr = s.expr ∧ (afterTest tag s).sched = s.sched ∧ (afterTest tag s).fire = s.fire ∧ (afterTest tag s).keys = s.keys ∧ (afterTest tag s).heat = s.heat ∧ (afterTest tag s).pedals = s.pedals ∧ (afterTest tag s).shadow = s.shadow := by
  unfold afterTest
  (repeat' split) <;> simp

@[simp] theorem busChannel_keeps (ch : Channel) (armed isWrite : Bool) (addr : Nat) (data : Word) (s : State) :
    (busChannel ch armed isWrite addr data s).now = s.now ∧ (busChannel ch armed isWrite addr data s).pending = s.pending ∧ (busChannel ch armed isWrite addr data s).rst = s.rst ∧ (busChannel ch armed isWrite addr data s).inh = s.inh ∧ (busChannel ch armed isWrite addr data s).ntc = s.ntc ∧ (busChannel ch armed isWrite addr data s).pwait = s.pwait ∧ (busChannel ch armed isWrite addr data s).spb = s.spb ∧ (busChannel ch armed isWrite addr data s).pd = s.pd ∧ (busChannel ch armed isWrite addr data s).kdNext = s.kdNext ∧ (busChannel ch armed isWrite addr data s).mem = s.mem ∧ (busChannel ch armed isWrite addr data s).arb = s.arb ∧ (busChannel ch armed isWrite addr data s).ring = s.ring ∧ (busChannel ch armed isWrite addr data s).track = s.track ∧ (busChannel ch armed isWrite addr data s).expr = s.expr ∧ (busChannel ch armed isWrite addr data s).sched = s.sched ∧ (busChannel ch armed isWrite addr data s).fire = s.fire ∧ (busChannel ch armed isWrite addr data s).keys = s.keys ∧ (busChannel ch armed isWrite addr data s).heat = s.heat ∧ (busChannel ch armed isWrite addr data s).pedals = s.pedals ∧ (busChannel ch armed isWrite addr data s).shadow = s.shadow := by
  unfold busChannel
  (repeat' split) <;> simp

@[simp] theorem busTest_keeps (isWrite : Bool) (addr : Nat) (data : Word) (s : State) :
    (busTest isWrite addr data s).now = s.now ∧ (busTest isWrite addr data s).pending = s.pending ∧ (busTest isWrite addr data s).rst = s.rst ∧ (busTest isWrite addr data s).inh = s.inh ∧ (busTest isWrite addr data s).ntc = s.ntc ∧ (busTest isWrite addr data s).pwait = s.pwait ∧ (busTest isWrite addr data s).spb = s.spb ∧ (busTest isWrite addr data s).pd = s.pd ∧ (busTest isWrite addr data s).kdNext = s.kdNext ∧ (busTest isWrite addr data s).mem = s.mem ∧ (busTest isWrite addr data s).arb = s.arb ∧ (busTest isWrite addr data s).ring = s.ring ∧ (busTest isWrite addr data s).track = s.track ∧ (busTest isWrite addr data s).expr = s.expr ∧ (busTest isWrite addr data s).sched = s.sched ∧ (busTest isWrite addr data s).fire = s.fire ∧ (busTest isWrite addr data s).keys = s.keys ∧ (busTest isWrite addr data s).heat = s.heat ∧ (busTest isWrite addr data s).pedals = s.pedals ∧ (busTest isWrite addr data s).shadow = s.shadow := by
  unfold busTest
  (repeat' split) <;> simp

@[simp] theorem showCycle_keeps (c : ProcCycle) (s : State) :
    (showCycle c s).now = s.now ∧ (showCycle c s).pending = s.pending ∧ (showCycle c s).rst = s.rst ∧ (showCycle c s).inh = s.inh ∧ (showCycle c s).ntc = s.ntc ∧ (showCycle c s).pwait = s.pwait ∧ (showCycle c s).spb = s.spb ∧ (showCycle c s).pd = s.pd ∧ (showCycle c s).kdNext = s.kdNext ∧ (showCycle c s).mem = s.mem ∧ (showCycle c s).arb = s.arb ∧ (showCycle c s).ring = s.ring ∧ (showCycle c s).track = s.track ∧ (showCycle c s).expr = s.expr ∧ (showCycle c s).sched = s.sched ∧ (showCycle c s).fire = s.fire ∧ (showCycle c s).keys = s.keys ∧ (showCycle c s).heat = s.heat ∧ (showCycle c s).pedals = s.pedals ∧ (showCycle c s).shadow = s.shadow := by
  unfold showCycle
  (repeat' split) <;> simp

@[simp] theorem clearByBlock_keeps (ch : Channel) (s : State) :
    (clearByBlock ch s).now = s.now ∧ (clearByBlock ch s).pending = s.pending ∧ (clearByBlock ch s).rst = s.rst ∧ (clearByBlock ch s).inh = s.inh ∧ (clearByBlock ch s).ntc = s.ntc ∧ (clearByBlock ch s).pwait = s.pwait ∧ (clearByBlock ch s).spb = s.spb ∧ (clearByBlock ch s).pd = s.pd ∧ (clearByBlock ch s).kdNext = s.kdNext ∧ (clearByBlock ch s).mem = s.mem ∧ (clearByBlock ch s).arb = s.arb ∧ (clearByBlock ch s).ring = s.ring ∧ (clearByBlock ch s).track = s.track ∧ (clearByBlock ch s).clock = s.clock ∧ (clearByBlock ch s).expr = s.expr ∧ (clearByBlock ch s).sched = s.sched ∧ (clearByBlock ch s).fire = s.fire ∧ (clearByBlock ch s).keys = s.keys ∧ (clearByBlock ch s).heat = s.heat ∧ (clearByBlock ch s).pedals = s.pedals ∧ (clearByBlock ch s).shadow = s.shadow ∧ (clearByBlock ch s).report = s.report := by
  unfold clearByBlock
  (repeat' split) <;> simp

@[simp] theorem clearCues_keeps (s : State) :
    (clearCues s).now = s.now ∧ (clearCues s).pending = s.pending ∧ (clearCues s).rst = s.rst ∧ (clearCues s).inh = s.inh ∧ (clearCues s).ntc = s.ntc ∧ (clearCues s).pwait = s.pwait ∧ (clearCues s).spb = s.spb ∧ (clearCues s).pd = s.pd ∧ (clearCues s).kdNext = s.kdNext ∧ (clearCues s).mem = s.mem ∧ (clearCues s).arb = s.arb ∧ (clearCues s).ring = s.ring ∧ (clearCues s).track = s.track ∧ (clearCues s).clock = s.clock ∧ (clearCues s).expr = s.expr ∧ (clearCues s).sched = s.sched ∧ (clearCues s).fire = s.fire ∧ (clearCues s).keys = s.keys ∧ (clearCues s).heat = s.heat ∧ (clearCues s).pedals = s.pedals ∧ (clearCues s).shadow = s.shadow ∧ (clearCues s).report = s.report := by
  unfold clearCues
  (repeat' split) <;> simp

@[simp] theorem clearByMask_keeps (mask : Nat) (s : State) :
    (clearByMask mask s).now = s.now ∧ (clearByMask mask s).pending = s.pending ∧ (clearByMask mask s).rst = s.rst ∧ (clearByMask mask s).inh = s.inh ∧ (clearByMask mask s).ntc = s.ntc ∧ (clearByMask mask s).pwait = s.pwait ∧ (clearByMask mask s).spb = s.spb ∧ (clearByMask mask s).pd = s.pd ∧ (clearByMask mask s).kdNext = s.kdNext ∧ (clearByMask mask s).mem = s.mem ∧ (clearByMask mask s).arb = s.arb ∧ (clearByMask mask s).ring = s.ring ∧ (clearByMask mask s).track = s.track ∧ (clearByMask mask s).clock = s.clock ∧ (clearByMask mask s).expr = s.expr ∧ (clearByMask mask s).sched = s.sched ∧ (clearByMask mask s).fire = s.fire ∧ (clearByMask mask s).keys = s.keys ∧ (clearByMask mask s).heat = s.heat ∧ (clearByMask mask s).pedals = s.pedals ∧ (clearByMask mask s).shadow = s.shadow ∧ (clearByMask mask s).report = s.report := by
  unfold clearByMask
  (repeat' split) <;> simp

end Sys2Proof.Machine
end

