-- ==== Sys2Proof/Laws/KeepLine.lean ====
section
/-! SUPPORT. What the operations on one line keep: one lemma for each operation, the fields of State it leaves alone. -/

namespace Sys2Proof.Machine

@[simp] theorem beginDecode_keeps (through : Nat) (s : State) :
    (beginDecode through s).now = s.now ∧ (beginDecode through s).pending = s.pending ∧ (beginDecode through s).rst = s.rst ∧ (beginDecode through s).inh = s.inh ∧ (beginDecode through s).ntc = s.ntc ∧ (beginDecode through s).pwait = s.pwait ∧ (beginDecode through s).spb = s.spb ∧ (beginDecode through s).pd = s.pd ∧ (beginDecode through s).kdNext = s.kdNext ∧ (beginDecode through s).mem = s.mem ∧ (beginDecode through s).arb = s.arb ∧ (beginDecode through s).ring = s.ring ∧ (beginDecode through s).clock = s.clock ∧ (beginDecode through s).sched = s.sched ∧ (beginDecode through s).fire = s.fire ∧ (beginDecode through s).keys = s.keys ∧ (beginDecode through s).heat = s.heat ∧ (beginDecode through s).pedals = s.pedals ∧ (beginDecode through s).cue = s.cue ∧ (beginDecode through s).shadow = s.shadow ∧ (beginDecode through s).report = s.report := by
  unfold beginDecode
  (repeat' split) <;> simp

@[simp] theorem decodeHeld_keeps (through : Nat) (due : Instant) (s : State) :
    (decodeHeld through due s).now = s.now ∧ (decodeHeld through due s).pending = s.pending ∧ (decodeHeld through due s).rst = s.rst ∧ (decodeHeld through due s).inh = s.inh ∧ (decodeHeld through due s).ntc = s.ntc ∧ (decodeHeld through due s).pwait = s.pwait ∧ (decodeHeld through due s).spb = s.spb ∧ (decodeHeld through due s).pd = s.pd ∧ (decodeHeld through due s).kdNext = s.kdNext ∧ (decodeHeld through due s).mem = s.mem ∧ (decodeHeld through due s).arb = s.arb ∧ (decodeHeld through due s).ring = s.ring ∧ (decodeHeld through due s).sched = s.sched ∧ (decodeHeld through due s).fire = s.fire ∧ (decodeHeld through due s).keys = s.keys ∧ (decodeHeld through due s).heat = s.heat ∧ (decodeHeld through due s).pedals = s.pedals ∧ (decodeHeld through due s).cue = s.cue ∧ (decodeHeld through due s).shadow = s.shadow ∧ (decodeHeld through due s).report = s.report := by
  unfold decodeHeld
  (repeat' split) <;> simp

@[simp] theorem acceptLine_keeps (frozen : Bool) (s : State) :
    (acceptLine frozen s).now = s.now ∧ (acceptLine frozen s).pending = s.pending ∧ (acceptLine frozen s).rst = s.rst ∧ (acceptLine frozen s).inh = s.inh ∧ (acceptLine frozen s).ntc = s.ntc ∧ (acceptLine frozen s).pwait = s.pwait ∧ (acceptLine frozen s).spb = s.spb ∧ (acceptLine frozen s).pd = s.pd ∧ (acceptLine frozen s).kdNext = s.kdNext ∧ (acceptLine frozen s).mem = s.mem ∧ (acceptLine frozen s).arb = s.arb ∧ (acceptLine frozen s).ring = s.ring ∧ (acceptLine frozen s).sched = s.sched ∧ (acceptLine frozen s).fire = s.fire ∧ (acceptLine frozen s).keys = s.keys ∧ (acceptLine frozen s).heat = s.heat ∧ (acceptLine frozen s).pedals = s.pedals ∧ (acceptLine frozen s).shadow = s.shadow := by
  unfold acceptLine
  dsimp only
  (repeat' split) <;> simp

@[simp] theorem reofferDue_keeps (frozen : Bool) (s : State) :
    (reofferDue frozen s).now = s.now ∧ (reofferDue frozen s).pending = s.pending ∧ (reofferDue frozen s).rst = s.rst ∧ (reofferDue frozen s).inh = s.inh ∧ (reofferDue frozen s).ntc = s.ntc ∧ (reofferDue frozen s).pwait = s.pwait ∧ (reofferDue frozen s).spb = s.spb ∧ (reofferDue frozen s).pd = s.pd ∧ (reofferDue frozen s).kdNext = s.kdNext ∧ (reofferDue frozen s).mem = s.mem ∧ (reofferDue frozen s).arb = s.arb ∧ (reofferDue frozen s).track = s.track ∧ (reofferDue frozen s).expr = s.expr ∧ (reofferDue frozen s).sched = s.sched ∧ (reofferDue frozen s).fire = s.fire ∧ (reofferDue frozen s).keys = s.keys ∧ (reofferDue frozen s).heat = s.heat ∧ (reofferDue frozen s).pedals = s.pedals ∧ (reofferDue frozen s).cue = s.cue ∧ (reofferDue frozen s).shadow = s.shadow := by
  unfold reofferDue
  (repeat' split) <;> simp

@[simp] theorem discardLine_keeps (frozen : Bool) (k : ReportKind) (detail : Word) (s : State) :
    (discardLine frozen k detail s).now = s.now ∧ (discardLine frozen k detail s).pending = s.pending ∧ (discardLine frozen k detail s).rst = s.rst ∧ (discardLine frozen k detail s).inh = s.inh ∧ (discardLine frozen k detail s).ntc = s.ntc ∧ (discardLine frozen k detail s).pwait = s.pwait ∧ (discardLine frozen k detail s).spb = s.spb ∧ (discardLine frozen k detail s).pd = s.pd ∧ (discardLine frozen k detail s).kdNext = s.kdNext ∧ (discardLine frozen k detail s).mem = s.mem ∧ (discardLine frozen k detail s).arb = s.arb ∧ (discardLine frozen k detail s).track = s.track ∧ (discardLine frozen k detail s).expr = s.expr ∧ (discardLine frozen k detail s).sched = s.sched ∧ (discardLine frozen k detail s).fire = s.fire ∧ (discardLine frozen k detail s).keys = s.keys ∧ (discardLine frozen k detail s).heat = s.heat ∧ (discardLine frozen k detail s).pedals = s.pedals ∧ (discardLine frozen k detail s).cue = s.cue ∧ (discardLine frozen k detail s).shadow = s.shadow := by
  unfold discardLine
  (repeat' split) <;> simp

@[simp] theorem fetchEnds_keeps (frozen : Bool) (s : State) :
    (fetchEnds frozen s).now = s.now ∧ (fetchEnds frozen s).pending = s.pending ∧ (fetchEnds frozen s).rst = s.rst ∧ (fetchEnds frozen s).inh = s.inh ∧ (fetchEnds frozen s).ntc = s.ntc ∧ (fetchEnds frozen s).pwait = s.pwait ∧ (fetchEnds frozen s).spb = s.spb ∧ (fetchEnds frozen s).pd = s.pd ∧ (fetchEnds frozen s).kdNext = s.kdNext ∧ (fetchEnds frozen s).mem = s.mem ∧ (fetchEnds frozen s).arb = s.arb ∧ (fetchEnds frozen s).sched = s.sched ∧ (fetchEnds frozen s).fire = s.fire ∧ (fetchEnds frozen s).keys = s.keys ∧ (fetchEnds frozen s).heat = s.heat ∧ (fetchEnds frozen s).pedals = s.pedals ∧ (fetchEnds frozen s).shadow = s.shadow := by
  unfold fetchEnds
  dsimp only
  (repeat' split) <;> simp

@[simp] theorem fetchWord_keeps (w : Word) (s : State) :
    (fetchWord w s).now = s.now ∧ (fetchWord w s).pending = s.pending ∧ (fetchWord w s).rst = s.rst ∧ (fetchWord w s).inh = s.inh ∧ (fetchWord w s).ntc = s.ntc ∧ (fetchWord w s).pwait = s.pwait ∧ (fetchWord w s).spb = s.spb ∧ (fetchWord w s).pd = s.pd ∧ (fetchWord w s).kdNext = s.kdNext ∧ (fetchWord w s).mem = s.mem ∧ (fetchWord w s).arb = s.arb ∧ (fetchWord w s).sched = s.sched ∧ (fetchWord w s).fire = s.fire ∧ (fetchWord w s).keys = s.keys ∧ (fetchWord w s).heat = s.heat ∧ (fetchWord w s).pedals = s.pedals ∧ (fetchWord w s).shadow = s.shadow := by
  unfold fetchWord
  dsimp only
  (repeat' split) <;> simp

@[simp] theorem actOnCandidate_keeps (off : Int) (s : State) :
    (actOnCandidate off s).now = s.now ∧ (actOnCandidate off s).pending = s.pending ∧ (actOnCandidate off s).rst = s.rst ∧ (actOnCandidate off s).inh = s.inh ∧ (actOnCandidate off s).ntc = s.ntc ∧ (actOnCandidate off s).pwait = s.pwait ∧ (actOnCandidate off s).spb = s.spb ∧ (actOnCandidate off s).pd = s.pd ∧ (actOnCandidate off s).kdNext = s.kdNext ∧ (actOnCandidate off s).mem = s.mem ∧ (actOnCandidate off s).arb = s.arb ∧ (actOnCandidate off s).ring = s.ring ∧ (actOnCandidate off s).clock = s.clock ∧ (actOnCandidate off s).expr = s.expr ∧ (actOnCandidate off s).sched = s.sched ∧ (actOnCandidate off s).fire = s.fire ∧ (actOnCandidate off s).keys = s.keys ∧ (actOnCandidate off s).heat = s.heat ∧ (actOnCandidate off s).pedals = s.pedals ∧ (actOnCandidate off s).cue = s.cue ∧ (actOnCandidate off s).shadow = s.shadow := by
  unfold actOnCandidate
  dsimp only
  (repeat' split) <;> simp

@[simp] theorem trackEdge_keeps (off : Int) (s : State) :
    (trackEdge off s).now = s.now ∧ (trackEdge off s).pending = s.pending ∧ (trackEdge off s).rst = s.rst ∧ (trackEdge off s).inh = s.inh ∧ (trackEdge off s).ntc = s.ntc ∧ (trackEdge off s).pwait = s.pwait ∧ (trackEdge off s).spb = s.spb ∧ (trackEdge off s).pd = s.pd ∧ (trackEdge off s).kdNext = s.kdNext ∧ (trackEdge off s).mem = s.mem ∧ (trackEdge off s).arb = s.arb ∧ (trackEdge off s).ring = s.ring ∧ (trackEdge off s).clock = s.clock ∧ (trackEdge off s).expr = s.expr ∧ (trackEdge off s).sched = s.sched ∧ (trackEdge off s).fire = s.fire ∧ (trackEdge off s).keys = s.keys ∧ (trackEdge off s).heat = s.heat ∧ (trackEdge off s).pedals = s.pedals ∧ (trackEdge off s).cue = s.cue ∧ (trackEdge off s).shadow = s.shadow := by
  unfold trackEdge
  dsimp only
  (repeat' split) <;> simp

@[simp] theorem trackNoEdge_keeps (s : State) :
    (trackNoEdge s).now = s.now ∧ (trackNoEdge s).pending = s.pending ∧ (trackNoEdge s).rst = s.rst ∧ (trackNoEdge s).inh = s.inh ∧ (trackNoEdge s).ntc = s.ntc ∧ (trackNoEdge s).pwait = s.pwait ∧ (trackNoEdge s).spb = s.spb ∧ (trackNoEdge s).pd = s.pd ∧ (trackNoEdge s).kdNext = s.kdNext ∧ (trackNoEdge s).mem = s.mem ∧ (trackNoEdge s).arb = s.arb ∧ (trackNoEdge s).ring = s.ring ∧ (trackNoEdge s).clock = s.clock ∧ (trackNoEdge s).expr = s.expr ∧ (trackNoEdge s).sched = s.sched ∧ (trackNoEdge s).fire = s.fire ∧ (trackNoEdge s).keys = s.keys ∧ (trackNoEdge s).heat = s.heat ∧ (trackNoEdge s).pedals = s.pedals ∧ (trackNoEdge s).cue = s.cue ∧ (trackNoEdge s).shadow = s.shadow ∧ (trackNoEdge s).report = s.report ∧ (trackNoEdge s).updates = s.updates := by
  unfold trackNoEdge
  (repeat' split) <;> simp

@[simp] theorem stageTracking_keeps (s : State) :
    (stageTracking s).now = s.now ∧ (stageTracking s).pending = s.pending ∧ (stageTracking s).rst = s.rst ∧ (stageTracking s).inh = s.inh ∧ (stageTracking s).ntc = s.ntc ∧ (stageTracking s).pwait = s.pwait ∧ (stageTracking s).spb = s.spb ∧ (stageTracking s).pd = s.pd ∧ (stageTracking s).kdNext = s.kdNext ∧ (stageTracking s).mem = s.mem ∧ (stageTracking s).arb = s.arb ∧ (stageTracking s).ring = s.ring ∧ (stageTracking s).clock = s.clock ∧ (stageTracking s).expr = s.expr ∧ (stageTracking s).sched = s.sched ∧ (stageTracking s).fire = s.fire ∧ (stageTracking s).keys = s.keys ∧ (stageTracking s).heat = s.heat ∧ (stageTracking s).pedals = s.pedals ∧ (stageTracking s).cue = s.cue ∧ (stageTracking s).shadow = s.shadow := by
  unfold stageTracking
  (repeat' split) <;> simp

@[simp] theorem stageConfirm_keeps (s : State) :
    (stageConfirm s).now = s.now ∧ (stageConfirm s).pending = s.pending ∧ (stageConfirm s).rst = s.rst ∧ (stageConfirm s).inh = s.inh ∧ (stageConfirm s).ntc = s.ntc ∧ (stageConfirm s).pwait = s.pwait ∧ (stageConfirm s).spb = s.spb ∧ (stageConfirm s).pd = s.pd ∧ (stageConfirm s).kdNext = s.kdNext ∧ (stageConfirm s).mem = s.mem ∧ (stageConfirm s).arb = s.arb ∧ (stageConfirm s).ring = s.ring ∧ (stageConfirm s).clock = s.clock ∧ (stageConfirm s).expr = s.expr ∧ (stageConfirm s).sched = s.sched ∧ (stageConfirm s).fire = s.fire ∧ (stageConfirm s).keys = s.keys ∧ (stageConfirm s).heat = s.heat ∧ (stageConfirm s).pedals = s.pedals ∧ (stageConfirm s).cue = s.cue ∧ (stageConfirm s).shadow = s.shadow ∧ (stageConfirm s).report = s.report ∧ (stageConfirm s).updates = s.updates := by
  unfold stageConfirm
  (repeat' split) <;> simp

@[simp] theorem stageExpression_keeps (s : State) :
    (stageExpression s).now = s.now ∧ (stageExpression s).pending = s.pending ∧ (stageExpression s).rst = s.rst ∧ (stageExpression s).inh = s.inh ∧ (stageExpression s).ntc = s.ntc ∧ (stageExpression s).pwait = s.pwait ∧ (stageExpression s).spb = s.spb ∧ (stageExpression s).pd = s.pd ∧ (stageExpression s).kdNext = s.kdNext ∧ (stageExpression s).mem = s.mem ∧ (stageExpression s).arb = s.arb ∧ (stageExpression s).ring = s.ring ∧ (stageExpression s).track = s.track ∧ (stageExpression s).clock = s.clock ∧ (stageExpression s).sched = s.sched ∧ (stageExpression s).fire = s.fire ∧ (stageExpression s).keys = s.keys ∧ (stageExpression s).heat = s.heat ∧ (stageExpression s).pedals = s.pedals ∧ (stageExpression s).cue = s.cue ∧ (stageExpression s).shadow = s.shadow ∧ (stageExpression s).report = s.report := by
  unfold stageExpression
  (repeat' split) <;> simp

@[simp] theorem pedalStage_keeps (s : State) (p : Pedal) :
    (pedalStage s p).now = s.now ∧ (pedalStage s p).pending = s.pending ∧ (pedalStage s p).rst = s.rst ∧ (pedalStage s p).inh = s.inh ∧ (pedalStage s p).ntc = s.ntc ∧ (pedalStage s p).pwait = s.pwait ∧ (pedalStage s p).spb = s.spb ∧ (pedalStage s p).pd = s.pd ∧ (pedalStage s p).kdNext = s.kdNext ∧ (pedalStage s p).mem = s.mem ∧ (pedalStage s p).arb = s.arb ∧ (pedalStage s p).ring = s.ring ∧ (pedalStage s p).track = s.track ∧ (pedalStage s p).clock = s.clock ∧ (pedalStage s p).expr = s.expr ∧ (pedalStage s p).heat = s.heat ∧ (pedalStage s p).cue = s.cue ∧ (pedalStage s p).shadow = s.shadow := by
  unfold pedalStage
  (repeat' split) <;> simp

@[simp] theorem stagePedals_keeps (s : State) :
    (stagePedals s).now = s.now ∧ (stagePedals s).pending = s.pending ∧ (stagePedals s).rst = s.rst ∧ (stagePedals s).inh = s.inh ∧ (stagePedals s).ntc = s.ntc ∧ (stagePedals s).pwait = s.pwait ∧ (stagePedals s).spb = s.spb ∧ (stagePedals s).pd = s.pd ∧ (stagePedals s).kdNext = s.kdNext ∧ (stagePedals s).mem = s.mem ∧ (stagePedals s).arb = s.arb ∧ (stagePedals s).ring = s.ring ∧ (stagePedals s).track = s.track ∧ (stagePedals s).clock = s.clock ∧ (stagePedals s).expr = s.expr ∧ (stagePedals s).heat = s.heat ∧ (stagePedals s).cue = s.cue ∧ (stagePedals s).shadow = s.shadow := by
  unfold stagePedals
  refine ⟨?_, ?_, ?_, ?_, ?_, ?_, ?_, ?_, ?_, ?_, ?_, ?_, ?_, ?_, ?_, ?_, ?_, ?_⟩
  · exact foldl_keeps (fun x : State => x.now) _ (by intro s k; (repeat' split) <;> simp) _ _
  · exact foldl_keeps (fun x : State => x.pending) _ (by intro s k; (repeat' split) <;> simp) _ _
  · exact foldl_keeps (fun x : State => x.rst) _ (by intro s k; (repeat' split) <;> simp) _ _
  · exact foldl_keeps (fun x : State => x.inh) _ (by intro s k; (repeat' split) <;> simp) _ _
  · exact foldl_keeps (fun x : State => x.ntc) _ (by intro s k; (repeat' split) <;> simp) _ _
  · exact foldl_keeps (fun x : State => x.pwait) _ (by intro s k; (repeat' split) <;> simp) _ _
  · exact foldl_keeps (fun x : State => x.spb) _ (by intro s k; (repeat' split) <;> simp) _ _
  · exact foldl_keeps (fun x : State => x.pd) _ (by intro s k; (repeat' split) <;> simp) _ _
  · exact foldl_keeps (fun x : State => x.kdNext) _ (by intro s k; (repeat' split) <;> simp) _ _
  · exact foldl_keeps (fun x : State => x.mem) _ (by intro s k; (repeat' split) <;> simp) _ _
  · exact foldl_keeps (fun x : State => x.arb) _ (by intro s k; (repeat' split) <;> simp) _ _
  · exact foldl_keeps (fun x : State => x.ring) _ (by intro s k; (repeat' split) <;> simp) _ _
  · exact foldl_keeps (fun x : State => x.track) _ (by intro s k; (repeat' split) <;> simp) _ _
  · exact foldl_keeps (fun x : State => x.clock) _ (by intro s k; (repeat' split) <;> simp) _ _
  · exact foldl_keeps (fun x : State => x.expr) _ (by intro s k; (repeat' split) <;> simp) _ _
  · exact foldl_keeps (fun x : State => x.heat) _ (by intro s k; (repeat' split) <;> simp) _ _
  · exact foldl_keeps (fun x : State => x.cue) _ (by intro s k; (repeat' split) <;> simp) _ _
  · exact foldl_keeps (fun x : State => x.shadow) _ (by intro s k; (repeat' split) <;> simp) _ _

@[simp] theorem noteOff_keeps (s : State) (k : Key) :
    (noteOff s k).now = s.now ∧ (noteOff s k).pending = s.pending ∧ (noteOff s k).rst = s.rst ∧ (noteOff s k).inh = s.inh ∧ (noteOff s k).ntc = s.ntc ∧ (noteOff s k).pwait = s.pwait ∧ (noteOff s k).spb = s.spb ∧ (noteOff s k).pd = s.pd ∧ (noteOff s k).kdNext = s.kdNext ∧ (noteOff s k).mem = s.mem ∧ (noteOff s k).arb = s.arb ∧ (noteOff s k).ring = s.ring ∧ (noteOff s k).track = s.track ∧ (noteOff s k).clock = s.clock ∧ (noteOff s k).expr = s.expr ∧ (noteOff s k).heat = s.heat ∧ (noteOff s k).cue = s.cue ∧ (noteOff s k).shadow = s.shadow := by
  unfold noteOff
  (repeat' split) <;> simp

@[simp] theorem stageNoteOffs_keeps (keys : List Key) (s : State) :
    (stageNoteOffs keys s).now = s.now ∧ (stageNoteOffs keys s).pending = s.pending ∧ (stageNoteOffs keys s).rst = s.rst ∧ (stageNoteOffs keys s).inh = s.inh ∧ (stageNoteOffs keys s).ntc = s.ntc ∧ (stageNoteOffs keys s).pwait = s.pwait ∧ (stageNoteOffs keys s).spb = s.spb ∧ (stageNoteOffs keys s).pd = s.pd ∧ (stageNoteOffs keys s).kdNext = s.kdNext ∧ (stageNoteOffs keys s).mem = s.mem ∧ (stageNoteOffs keys s).arb = s.arb ∧ (stageNoteOffs keys s).ring = s.ring ∧ (stageNoteOffs keys s).track = s.track ∧ (stageNoteOffs keys s).clock = s.clock ∧ (stageNoteOffs keys s).expr = s.expr ∧ (stageNoteOffs keys s).heat = s.heat ∧ (stageNoteOffs keys s).cue = s.cue ∧ (stageNoteOffs keys s).shadow = s.shadow := by
  unfold stageNoteOffs
  refine ⟨?_, ?_, ?_, ?_, ?_, ?_, ?_, ?_, ?_, ?_, ?_, ?_, ?_, ?_, ?_, ?_, ?_, ?_⟩
  · exact foldl_keeps (fun x : State => x.now) _ (by intro s k; (repeat' split) <;> simp) _ _
  · exact foldl_keeps (fun x : State => x.pending) _ (by intro s k; (repeat' split) <;> simp) _ _
  · exact foldl_keeps (fun x : State => x.rst) _ (by intro s k; (repeat' split) <;> simp) _ _
  · exact foldl_keeps (fun x : State => x.inh) _ (by intro s k; (repeat' split) <;> simp) _ _
  · exact foldl_keeps (fun x : State => x.ntc) _ (by intro s k; (repeat' split) <;> simp) _ _
  · exact foldl_keeps (fun x : State => x.pwait) _ (by intro s k; (repeat' split) <;> simp) _ _
  · exact foldl_keeps (fun x : State => x.spb) _ (by intro s k; (repeat' split) <;> simp) _ _
  · exact foldl_keeps (fun x : State => x.pd) _ (by intro s k; (repeat' split) <;> simp) _ _
  · exact foldl_keeps (fun x : State => x.kdNext) _ (by intro s k; (repeat' split) <;> simp) _ _
  · exact foldl_keeps (fun x : State => x.mem) _ (by intro s k; (repeat' split) <;> simp) _ _
  · exact foldl_keeps (fun x : State => x.arb) _ (by intro s k; (repeat' split) <;> simp) _ _
  · exact foldl_keeps (fun x : State => x.ring) _ (by intro s k; (repeat' split) <;> simp) _ _
  · exact foldl_keeps (fun x : State => x.track) _ (by intro s k; (repeat' split) <;> simp) _ _
  · exact foldl_keeps (fun x : State => x.clock) _ (by intro s k; (repeat' split) <;> simp) _ _
  · exact foldl_keeps (fun x : State => x.expr) _ (by intro s k; (repeat' split) <;> simp) _ _
  · exact foldl_keeps (fun x : State => x.heat) _ (by intro s k; (repeat' split) <;> simp) _ _
  · exact foldl_keeps (fun x : State => x.cue) _ (by intro s k; (repeat' split) <;> simp) _ _
  · exact foldl_keeps (fun x : State => x.shadow) _ (by intro s k; (repeat' split) <;> simp) _ _

@[simp] theorem bumpSerial_keeps (k : Key) (s : State) :
    (bumpSerial k s).now = s.now ∧ (bumpSerial k s).pending = s.pending ∧ (bumpSerial k s).rst = s.rst ∧ (bumpSerial k s).inh = s.inh ∧ (bumpSerial k s).ntc = s.ntc ∧ (bumpSerial k s).pwait = s.pwait ∧ (bumpSerial k s).spb = s.spb ∧ (bumpSerial k s).pd = s.pd ∧ (bumpSerial k s).kdNext = s.kdNext ∧ (bumpSerial k s).mem = s.mem ∧ (bumpSerial k s).arb = s.arb ∧ (bumpSerial k s).ring = s.ring ∧ (bumpSerial k s).clock = s.clock ∧ (bumpSerial k s).expr = s.expr ∧ (bumpSerial k s).sched = s.sched ∧ (bumpSerial k s).fire = s.fire ∧ (bumpSerial k s).keys = s.keys ∧ (bumpSerial k s).heat = s.heat ∧ (bumpSerial k s).pedals = s.pedals ∧ (bumpSerial k s).cue = s.cue ∧ (bumpSerial k s).shadow = s.shadow ∧ (bumpSerial k s).report = s.report ∧ (bumpSerial k s).updates = s.updates := by
  unfold bumpSerial
  (repeat' split) <;> simp

@[simp] theorem noteOn_keeps (muted : Bool) (s : State) (k : Key) :
    (noteOn muted s k).now = s.now ∧ (noteOn muted s k).pending = s.pending ∧ (noteOn muted s k).rst = s.rst ∧ (noteOn muted s k).inh = s.inh ∧ (noteOn muted s k).ntc = s.ntc ∧ (noteOn muted s k).pwait = s.pwait ∧ (noteOn muted s k).spb = s.spb ∧ (noteOn muted s k).pd = s.pd ∧ (noteOn muted s k).kdNext = s.kdNext ∧ (noteOn muted s k).mem = s.mem ∧ (noteOn muted s k).arb = s.arb ∧ (noteOn muted s k).ring = s.ring ∧ (noteOn muted s k).clock = s.clock ∧ (noteOn muted s k).expr = s.expr ∧ (noteOn muted s k).heat = s.heat ∧ (noteOn muted s k).cue = s.cue ∧ (noteOn muted s k).shadow = s.shadow := by
  unfold noteOn
  dsimp only
  (repeat' split) <;> simp

@[simp] theorem stageNoteOns_keeps (muted : Bool) (keys : List Key) (s : State) :
    (stageNoteOns muted keys s).now = s.now ∧ (stageNoteOns muted keys s).pending = s.pending ∧ (stageNoteOns muted keys s).rst = s.rst ∧ (stageNoteOns muted keys s).inh = s.inh ∧ (stageNoteOns muted keys s).ntc = s.ntc ∧ (stageNoteOns muted keys s).pwait = s.pwait ∧ (stageNoteOns muted keys s).spb = s.spb ∧ (stageNoteOns muted keys s).pd = s.pd ∧ (stageNoteOns muted keys s).kdNext = s.kdNext ∧ (stageNoteOns muted keys s).mem = s.mem ∧ (stageNoteOns muted keys s).arb = s.arb ∧ (stageNoteOns muted keys s).ring = s.ring ∧ (stageNoteOns muted keys s).clock = s.clock ∧ (stageNoteOns muted keys s).expr = s.expr ∧ (stageNoteOns muted keys s).heat = s.heat ∧ (stageNoteOns muted keys s).cue = s.cue ∧ (stageNoteOns muted keys s).shadow = s.shadow := by
  unfold stageNoteOns
  refine ⟨?_, ?_, ?_, ?_, ?_, ?_, ?_, ?_, ?_, ?_, ?_, ?_, ?_, ?_, ?_, ?_, ?_⟩
  · exact foldl_keeps (fun x : State => x.now) _ (by intro s k; (repeat' split) <;> simp) _ _
  · exact foldl_keeps (fun x : State => x.pending) _ (by intro s k; (repeat' split) <;> simp) _ _
  · exact foldl_keeps (fun x : State => x.rst) _ (by intro s k; (repeat' split) <;> simp) _ _
  · exact foldl_keeps (fun x : State => x.inh) _ (by intro s k; (repeat' split) <;> simp) _ _
  · exact foldl_keeps (fun x : State => x.ntc) _ (by intro s k; (repeat' split) <;> simp) _ _
  · exact foldl_keeps (fun x : State => x.pwait) _ (by intro s k; (repeat' split) <;> simp) _ _
  · exact foldl_keeps (fun x : State => x.spb) _ (by intro s k; (repeat' split) <;> simp) _ _
  · exact foldl_keeps (fun x : State => x.pd) _ (by intro s k; (repeat' split) <;> simp) _ _
  · exact foldl_keeps (fun x : State => x.kdNext) _ (by intro s k; (repeat' split) <;> simp) _ _
  · exact foldl_keeps (fun x : State => x.mem) _ (by intro s k; (repeat' split) <;> simp) _ _
  · exact foldl_keeps (fun x : State => x.arb) _ (by intro s k; (repeat' split) <;> simp) _ _
  · exact foldl_keeps (fun x : State => x.ring) _ (by intro s k; (repeat' split) <;> simp) _ _
  · exact foldl_keeps (fun x : State => x.clock) _ (by intro s k; (repeat' split) <;> simp) _ _
  · exact foldl_keeps (fun x : State => x.expr) _ (by intro s k; (repeat' split) <;> simp) _ _
  · exact foldl_keeps (fun x : State => x.heat) _ (by intro s k; (repeat' split) <;> simp) _ _
  · exact foldl_keeps (fun x : State => x.cue) _ (by intro s k; (repeat' split) <;> simp) _ _
  · exact foldl_keeps (fun x : State => x.shadow) _ (by intro s k; (repeat' split) <;> simp) _ _

@[simp] theorem cueMarks_keeps (s : State) :
    (cueMarks s).now = s.now ∧ (cueMarks s).pending = s.pending ∧ (cueMarks s).rst = s.rst ∧ (cueMarks s).inh = s.inh ∧ (cueMarks s).ntc = s.ntc ∧ (cueMarks s).pwait = s.pwait ∧ (cueMarks s).spb = s.spb ∧ (cueMarks s).pd = s.pd ∧ (cueMarks s).kdNext = s.kdNext ∧ (cueMarks s).mem = s.mem ∧ (cueMarks s).arb = s.arb ∧ (cueMarks s).ring = s.ring ∧ (cueMarks s).track = s.track ∧ (cueMarks s).clock = s.clock ∧ (cueMarks s).expr = s.expr ∧ (cueMarks s).sched = s.sched ∧ (cueMarks s).fire = s.fire ∧ (cueMarks s).keys = s.keys ∧ (cueMarks s).heat = s.heat ∧ (cueMarks s).pedals = s.pedals ∧ (cueMarks s).cue = s.cue ∧ (cueMarks s).shadow = s.shadow := by
  unfold cueMarks
  refine ⟨?_, ?_, ?_, ?_, ?_, ?_, ?_, ?_, ?_, ?_, ?_, ?_, ?_, ?_, ?_, ?_, ?_, ?_, ?_, ?_, ?_, ?_⟩
  · exact foldl_keeps (fun x : State => x.now) _ (by intro s k; (repeat' split) <;> simp) _ _
  · exact foldl_keeps (fun x : State => x.pending) _ (by intro s k; (repeat' split) <;> simp) _ _
  · exact foldl_keeps (fun x : State => x.rst) _ (by intro s k; (repeat' split) <;> simp) _ _
  · exact foldl_keeps (fun x : State => x.inh) _ (by intro s k; (repeat' split) <;> simp) _ _
  · exact foldl_keeps (fun x : State => x.ntc) _ (by intro s k; (repeat' split) <;> simp) _ _
  · exact foldl_keeps (fun x : State => x.pwait) _ (by intro s k; (repeat' split) <;> simp) _ _
  · exact foldl_keeps (fun x : State => x.spb) _ (by intro s k; (repeat' split) <;> simp) _ _
  · exact foldl_keeps (fun x : State => x.pd) _ (by intro s k; (repeat' split) <;> simp) _ _
  · exact foldl_keeps (fun x : State => x.kdNext) _ (by intro s k; (repeat' split) <;> simp) _ _
  · exact foldl_keeps (fun x : State => x.mem) _ (by intro s k; (repeat' split) <;> simp) _ _
  · exact foldl_keeps (fun x : State => x.arb) _ (by intro s k; (repeat' split) <;> simp) _ _
  · exact foldl_keeps (fun x : State => x.ring) _ (by intro s k; (repeat' split) <;> simp) _ _
  · exact foldl_keeps (fun x : State => x.track) _ (by intro s k; (repeat' split) <;> simp) _ _
  · exact foldl_keeps (fun x : State => x.clock) _ (by intro s k; (repeat' split) <;> simp) _ _
  · exact foldl_keeps (fun x : State => x.expr) _ (by intro s k; (repeat' split) <;> simp) _ _
  · exact foldl_keeps (fun x : State => x.sched) _ (by intro s k; (repeat' split) <;> simp) _ _
  · exact foldl_keeps (fun x : State => x.fire) _ (by intro s k; (repeat' split) <;> simp) _ _
  · exact foldl_keeps (fun x : State => x.keys) _ (by intro s k; (repeat' split) <;> simp) _ _
  · exact foldl_keeps (fun x : State => x.heat) _ (by intro s k; (repeat' split) <;> simp) _ _
  · exact foldl_keeps (fun x : State => x.pedals) _ (by intro s k; (repeat' split) <;> simp) _ _
  · exact foldl_keeps (fun x : State => x.cue) _ (by intro s k; (repeat' split) <;> simp) _ _
  · exact foldl_keeps (fun x : State => x.shadow) _ (by intro s k; (repeat' split) <;> simp) _ _

@[simp] theorem stageMarks_keeps (muted : Bool) (s : State) :
    (stageMarks muted s).now = s.now ∧ (stageMarks muted s).pending = s.pending ∧ (stageMarks muted s).rst = s.rst ∧ (stageMarks muted s).inh = s.inh ∧ (stageMarks muted s).ntc = s.ntc ∧ (stageMarks muted s).pwait = s.pwait ∧ (stageMarks muted s).spb = s.spb ∧ (stageMarks muted s).pd = s.pd ∧ (stageMarks muted s).kdNext = s.kdNext ∧ (stageMarks muted s).mem = s.mem ∧ (stageMarks muted s).arb = s.arb ∧ (stageMarks muted s).ring = s.ring ∧ (stageMarks muted s).clock = s.clock ∧ (stageMarks muted s).expr = s.expr ∧ (stageMarks muted s).sched = s.sched ∧ (stageMarks muted s).fire = s.fire ∧ (stageMarks muted s).keys = s.keys ∧ (stageMarks muted s).heat = s.heat ∧ (stageMarks muted s).pedals = s.pedals ∧ (stageMarks muted s).cue = s.cue ∧ (stageMarks muted s).shadow = s.shadow := by
  unfold stageMarks
  dsimp only
  (repeat' split) <;> simp

@[simp] theorem noteWork_keeps (d : Decode) (keys : List Key) (s : State) :
    (noteWork d keys s).now = s.now ∧ (noteWork d keys s).pending = s.pending ∧ (noteWork d keys s).rst = s.rst ∧ (noteWork d keys s).inh = s.inh ∧ (noteWork d keys s).ntc = s.ntc ∧ (noteWork d keys s).pwait = s.pwait ∧ (noteWork d keys s).spb = s.spb ∧ (noteWork d keys s).pd = s.pd ∧ (noteWork d keys s).kdNext = s.kdNext ∧ (noteWork d keys s).mem = s.mem ∧ (noteWork d keys s).arb = s.arb ∧ (noteWork d keys s).ring = s.ring ∧ (noteWork d keys s).clock = s.clock ∧ (noteWork d keys s).expr = s.expr ∧ (noteWork d keys s).heat = s.heat ∧ (noteWork d keys s).cue = s.cue ∧ (noteWork d keys s).shadow = s.shadow := by
  unfold noteWork
  (repeat' split) <;> simp

@[simp] theorem stageWork_keeps (d : Decode) (s : State) :
    (stageWork d s).now = s.now ∧ (stageWork d s).pending = s.pending ∧ (stageWork d s).rst = s.rst ∧ (stageWork d s).inh = s.inh ∧ (stageWork d s).ntc = s.ntc ∧ (stageWork d s).pwait = s.pwait ∧ (stageWork d s).spb = s.spb ∧ (stageWork d s).pd = s.pd ∧ (stageWork d s).kdNext = s.kdNext ∧ (stageWork d s).mem = s.mem ∧ (stageWork d s).arb = s.arb ∧ (stageWork d s).ring = s.ring ∧ (stageWork d s).heat = s.heat ∧ (stageWork d s).shadow = s.shadow := by
  unfold stageWork
  (repeat' split) <;> simp

@[simp] theorem nextStage_keeps (s : State) :
    (nextStage s).now = s.now ∧ (nextStage s).pending = s.pending ∧ (nextStage s).rst = s.rst ∧ (nextStage s).inh = s.inh ∧ (nextStage s).ntc = s.ntc ∧ (nextStage s).pwait = s.pwait ∧ (nextStage s).spb = s.spb ∧ (nextStage s).pd = s.pd ∧ (nextStage s).kdNext = s.kdNext ∧ (nextStage s).mem = s.mem ∧ (nextStage s).arb = s.arb ∧ (nextStage s).ring = s.ring ∧ (nextStage s).clock = s.clock ∧ (nextStage s).expr = s.expr ∧ (nextStage s).sched = s.sched ∧ (nextStage s).fire = s.fire ∧ (nextStage s).keys = s.keys ∧ (nextStage s).heat = s.heat ∧ (nextStage s).pedals = s.pedals ∧ (nextStage s).cue = s.cue ∧ (nextStage s).shadow = s.shadow ∧ (nextStage s).report = s.report ∧ (nextStage s).updates = s.updates := by
  unfold nextStage
  (repeat' split) <;> simp

@[simp] theorem decodeOn_keeps (d : Decode) (upTo : Option Key) (s : State) :
    (decodeOn d upTo s).now = s.now ∧ (decodeOn d upTo s).pending = s.pending ∧ (decodeOn d upTo s).rst = s.rst ∧ (decodeOn d upTo s).inh = s.inh ∧ (decodeOn d upTo s).ntc = s.ntc ∧ (decodeOn d upTo s).pwait = s.pwait ∧ (decodeOn d upTo s).spb = s.spb ∧ (decodeOn d upTo s).pd = s.pd ∧ (decodeOn d upTo s).kdNext = s.kdNext ∧ (decodeOn d upTo s).mem = s.mem ∧ (decodeOn d upTo s).arb = s.arb ∧ (decodeOn d upTo s).ring = s.ring ∧ (decodeOn d upTo s).heat = s.heat ∧ (decodeOn d upTo s).shadow = s.shadow := by
  unfold decodeOn
  (repeat' split) <;> simp

@[simp] theorem endLine_keeps (s : State) :
    (endLine s).now = s.now ∧ (endLine s).pending = s.pending ∧ (endLine s).rst = s.rst ∧ (endLine s).inh = s.inh ∧ (endLine s).ntc = s.ntc ∧ (endLine s).pwait = s.pwait ∧ (endLine s).spb = s.spb ∧ (endLine s).pd = s.pd ∧ (endLine s).kdNext = s.kdNext ∧ (endLine s).mem = s.mem ∧ (endLine s).arb = s.arb ∧ (endLine s).expr = s.expr ∧ (endLine s).sched = s.sched ∧ (endLine s).fire = s.fire ∧ (endLine s).keys = s.keys ∧ (endLine s).heat = s.heat ∧ (endLine s).pedals = s.pedals ∧ (endLine s).shadow = s.shadow ∧ (endLine s).report = s.report := by
  unfold endLine
  (repeat' split) <;> simp

@[simp] theorem endStep_keeps (hold : Option TrackHold) (s : State) :
    (endStep hold s).now = s.now ∧ (endStep hold s).pending = s.pending ∧ (endStep hold s).rst = s.rst ∧ (endStep hold s).inh = s.inh ∧ (endStep hold s).ntc = s.ntc ∧ (endStep hold s).pwait = s.pwait ∧ (endStep hold s).spb = s.spb ∧ (endStep hold s).pd = s.pd ∧ (endStep hold s).kdNext = s.kdNext ∧ (endStep hold s).mem = s.mem ∧ (endStep hold s).arb = s.arb ∧ (endStep hold s).ring = s.ring ∧ (endStep hold s).track = s.track ∧ (endStep hold s).expr = s.expr ∧ (endStep hold s).sched = s.sched ∧ (endStep hold s).fire = s.fire ∧ (endStep hold s).keys = s.keys ∧ (endStep hold s).heat = s.heat ∧ (endStep hold s).pedals = s.pedals ∧ (endStep hold s).cue = s.cue ∧ (endStep hold s).shadow = s.shadow := by
  unfold endStep
  (repeat' split) <;> simp

@[simp] theorem placeTrackHold_keeps (hold : Option TrackHold) (s : State) :
    (placeTrackHold hold s).now = s.now ∧ (placeTrackHold hold s).pending = s.pending ∧ (placeTrackHold hold s).rst = s.rst ∧ (placeTrackHold hold s).inh = s.inh ∧ (placeTrackHold hold s).ntc = s.ntc ∧ (placeTrackHold hold s).pwait = s.pwait ∧ (placeTrackHold hold s).spb = s.spb ∧ (placeTrackHold hold s).pd = s.pd ∧ (placeTrackHold hold s).kdNext = s.kdNext ∧ (placeTrackHold hold s).mem = s.mem ∧ (placeTrackHold hold s).arb = s.arb ∧ (placeTrackHold hold s).ring = s.ring ∧ (placeTrackHold hold s).track = s.track ∧ (placeTrackHold hold s).expr = s.expr ∧ (placeTrackHold hold s).sched = s.sched ∧ (placeTrackHold hold s).fire = s.fire ∧ (placeTrackHold hold s).keys = s.keys ∧ (placeTrackHold hold s).heat = s.heat ∧ (placeTrackHold hold s).pedals = s.pedals ∧ (placeTrackHold hold s).cue = s.cue ∧ (placeTrackHold hold s).shadow = s.shadow ∧ (placeTrackHold hold s).report = s.report ∧ (placeTrackHold hold s).updates = s.updates := by
  unfold placeTrackHold
  (repeat' split) <;> simp

@[simp] theorem boundaryNext_keeps (s : State) :
    (boundaryNext s).now = s.now ∧ (boundaryNext s).pending = s.pending ∧ (boundaryNext s).rst = s.rst ∧ (boundaryNext s).inh = s.inh ∧ (boundaryNext s).ntc = s.ntc ∧ (boundaryNext s).pwait = s.pwait ∧ (boundaryNext s).spb = s.spb ∧ (boundaryNext s).pd = s.pd ∧ (boundaryNext s).kdNext = s.kdNext ∧ (boundaryNext s).mem = s.mem ∧ (boundaryNext s).arb = s.arb ∧ (boundaryNext s).track = s.track ∧ (boundaryNext s).expr = s.expr ∧ (boundaryNext s).sched = s.sched ∧ (boundaryNext s).fire = s.fire ∧ (boundaryNext s).keys = s.keys ∧ (boundaryNext s).heat = s.heat ∧ (boundaryNext s).pedals = s.pedals ∧ (boundaryNext s).cue = s.cue ∧ (boundaryNext s).shadow = s.shadow := by
  unfold boundaryNext
  (repeat' split) <;> simp

@[simp] theorem lineBoundary_keeps (d : Decode) (s : State) :
    (lineBoundary d s).now = s.now ∧ (lineBoundary d s).pending = s.pending ∧ (lineBoundary d s).rst = s.rst ∧ (lineBoundary d s).inh = s.inh ∧ (lineBoundary d s).ntc = s.ntc ∧ (lineBoundary d s).pwait = s.pwait ∧ (lineBoundary d s).spb = s.spb ∧ (lineBoundary d s).pd = s.pd ∧ (lineBoundary d s).kdNext = s.kdNext ∧ (lineBoundary d s).mem = s.mem ∧ (lineBoundary d s).arb = s.arb ∧ (lineBoundary d s).expr = s.expr ∧ (lineBoundary d s).sched = s.sched ∧ (lineBoundary d s).fire = s.fire ∧ (lineBoundary d s).keys = s.keys ∧ (lineBoundary d s).heat = s.heat ∧ (lineBoundary d s).pedals = s.pedals ∧ (lineBoundary d s).shadow = s.shadow := by
  unfold lineBoundary
  dsimp only
  (repeat' split) <;> simp

@[simp] theorem expressionMove_keeps (s : State) :
    (expressionMove s).now = s.now ∧ (expressionMove s).pending = s.pending ∧ (expressionMove s).rst = s.rst ∧ (expressionMove s).inh = s.inh ∧ (expressionMove s).ntc = s.ntc ∧ (expressionMove s).pwait = s.pwait ∧ (expressionMove s).spb = s.spb ∧ (expressionMove s).pd = s.pd ∧ (expressionMove s).kdNext = s.kdNext ∧ (expressionMove s).mem = s.mem ∧ (expressionMove s).arb = s.arb ∧ (expressionMove s).ring = s.ring ∧ (expressionMove s).track = s.track ∧ (expressionMove s).clock = s.clock ∧ (expressionMove s).sched = s.sched ∧ (expressionMove s).fire = s.fire ∧ (expressionMove s).keys = s.keys ∧ (expressionMove s).heat = s.heat ∧ (expressionMove s).pedals = s.pedals ∧ (expressionMove s).cue = s.cue ∧ (expressionMove s).shadow = s.shadow ∧ (expressionMove s).report = s.report := by
  unfold expressionMove
  (repeat' split) <;> simp

end Sys2Proof.Machine
end

