-- ==== Sys2Proof/Laws/KeepLoad.lean ====
section
/-! SUPPORT. What LOAD and the command intake keep: one lemma for each operation, the fields of State it leaves alone. -/

namespace Sys2Proof.Machine

@[simp] theorem goDormant_keeps (s : State) :
    (goDormant s).now = s.now ∧ (goDormant s).pending = s.pending ∧ (goDormant s).rst = s.rst ∧ (goDormant s).inh = s.inh ∧ (goDormant s).ntc = s.ntc ∧ (goDormant s).pwait = s.pwait ∧ (goDormant s).spb = s.spb ∧ (goDormant s).pd = s.pd ∧ (goDormant s).kdNext = s.kdNext ∧ (goDormant s).mem = s.mem ∧ (goDormant s).arb = s.arb ∧ (goDormant s).ring = s.ring ∧ (goDormant s).track = s.track ∧ (goDormant s).clock = s.clock ∧ (goDormant s).expr = s.expr ∧ (goDormant s).sched = s.sched ∧ (goDormant s).fire = s.fire ∧ (goDormant s).keys = s.keys ∧ (goDormant s).heat = s.heat ∧ (goDormant s).pedals = s.pedals ∧ (goDormant s).cue = s.cue := by
  unfold goDormant
  (repeat' split) <;> simp

@[simp] theorem loadFails_keeps (off : Nat) (s : State) :
    (loadFails off s).now = s.now ∧ (loadFails off s).pending = s.pending ∧ (loadFails off s).rst = s.rst ∧ (loadFails off s).inh = s.inh ∧ (loadFails off s).ntc = s.ntc ∧ (loadFails off s).pwait = s.pwait ∧ (loadFails off s).spb = s.spb ∧ (loadFails off s).pd = s.pd ∧ (loadFails off s).kdNext = s.kdNext ∧ (loadFails off s).mem = s.mem ∧ (loadFails off s).arb = s.arb ∧ (loadFails off s).track = s.track ∧ (loadFails off s).expr = s.expr ∧ (loadFails off s).sched = s.sched ∧ (loadFails off s).heat = s.heat ∧ (loadFails off s).pedals = s.pedals ∧ (loadFails off s).cue = s.cue := by
  unfold loadFails
  (repeat' split) <;> simp

@[simp] theorem startSides_keeps (s : State) :
    (startSides s).now = s.now ∧ (startSides s).pending = s.pending ∧ (startSides s).rst = s.rst ∧ (startSides s).inh = s.inh ∧ (startSides s).ntc = s.ntc ∧ (startSides s).pwait = s.pwait ∧ (startSides s).spb = s.spb ∧ (startSides s).pd = s.pd ∧ (startSides s).kdNext = s.kdNext ∧ (startSides s).mem = s.mem ∧ (startSides s).arb = s.arb ∧ (startSides s).ring = s.ring ∧ (startSides s).track = s.track ∧ (startSides s).clock = s.clock ∧ (startSides s).sched = s.sched ∧ (startSides s).fire = s.fire ∧ (startSides s).keys = s.keys ∧ (startSides s).heat = s.heat ∧ (startSides s).pedals = s.pedals ∧ (startSides s).cue = s.cue ∧ (startSides s).shadow = s.shadow ∧ (startSides s).report = s.report := by
  unfold startSides
  (repeat' split) <;> simp

@[simp] theorem setHeatCopies_keeps (s : State) :
    (setHeatCopies s).now = s.now ∧ (setHeatCopies s).pending = s.pending ∧ (setHeatCopies s).rst = s.rst ∧ (setHeatCopies s).inh = s.inh ∧ (setHeatCopies s).ntc = s.ntc ∧ (setHeatCopies s).pwait = s.pwait ∧ (setHeatCopies s).spb = s.spb ∧ (setHeatCopies s).pd = s.pd ∧ (setHeatCopies s).kdNext = s.kdNext ∧ (setHeatCopies s).mem = s.mem ∧ (setHeatCopies s).arb = s.arb ∧ (setHeatCopies s).ring = s.ring ∧ (setHeatCopies s).track = s.track ∧ (setHeatCopies s).clock = s.clock ∧ (setHeatCopies s).expr = s.expr ∧ (setHeatCopies s).sched = s.sched ∧ (setHeatCopies s).fire = s.fire ∧ (setHeatCopies s).keys = s.keys ∧ (setHeatCopies s).pedals = s.pedals ∧ (setHeatCopies s).cue = s.cue ∧ (setHeatCopies s).shadow = s.shadow ∧ (setHeatCopies s).report = s.report ∧ (setHeatCopies s).updates = s.updates := by
  unfold setHeatCopies
  (repeat' split) <;> simp

@[simp] theorem activateReports_keeps (s : State) :
    (activateReports s).now = s.now ∧ (activateReports s).pending = s.pending ∧ (activateReports s).rst = s.rst ∧ (activateReports s).inh = s.inh ∧ (activateReports s).ntc = s.ntc ∧ (activateReports s).pwait = s.pwait ∧ (activateReports s).spb = s.spb ∧ (activateReports s).pd = s.pd ∧ (activateReports s).kdNext = s.kdNext ∧ (activateReports s).mem = s.mem ∧ (activateReports s).arb = s.arb ∧ (activateReports s).ring = s.ring ∧ (activateReports s).track = s.track ∧ (activateReports s).clock = s.clock ∧ (activateReports s).expr = s.expr ∧ (activateReports s).sched = s.sched ∧ (activateReports s).fire = s.fire ∧ (activateReports s).keys = s.keys ∧ (activateReports s).heat = s.heat ∧ (activateReports s).pedals = s.pedals ∧ (activateReports s).cue = s.cue ∧ (activateReports s).shadow = s.shadow := by
  unfold activateReports
  (repeat' split) <;> simp

@[simp] theorem loadSucceeds_keeps (s : State) :
    (loadSucceeds s).now = s.now ∧ (loadSucceeds s).pending = s.pending ∧ (loadSucceeds s).rst = s.rst ∧ (loadSucceeds s).inh = s.inh ∧ (loadSucceeds s).ntc = s.ntc ∧ (loadSucceeds s).pwait = s.pwait ∧ (loadSucceeds s).spb = s.spb ∧ (loadSucceeds s).pd = s.pd ∧ (loadSucceeds s).kdNext = s.kdNext ∧ (loadSucceeds s).mem = s.mem ∧ (loadSucceeds s).arb = s.arb ∧ (loadSucceeds s).clock = s.clock := by
  unfold loadSucceeds
  dsimp only
  (repeat' split) <;> simp

@[simp] theorem loadWord_keeps (off : Nat) (w : Word) (s : State) :
    (loadWord off w s).now = s.now ∧ (loadWord off w s).pending = s.pending ∧ (loadWord off w s).rst = s.rst ∧ (loadWord off w s).inh = s.inh ∧ (loadWord off w s).ntc = s.ntc ∧ (loadWord off w s).pwait = s.pwait ∧ (loadWord off w s).spb = s.spb ∧ (loadWord off w s).pd = s.pd ∧ (loadWord off w s).kdNext = s.kdNext ∧ (loadWord off w s).mem = s.mem ∧ (loadWord off w s).arb = s.arb := by
  unfold loadWord
  dsimp only
  (repeat' split) <;> simp

@[simp] theorem doLoad_keeps (s : State) :
    (doLoad s).now = s.now ∧ (doLoad s).pending = s.pending ∧ (doLoad s).rst = s.rst ∧ (doLoad s).inh = s.inh ∧ (doLoad s).ntc = s.ntc ∧ (doLoad s).pwait = s.pwait ∧ (doLoad s).spb = s.spb ∧ (doLoad s).pd = s.pd ∧ (doLoad s).kdNext = s.kdNext ∧ (doLoad s).mem = s.mem ∧ (doLoad s).track = s.track ∧ (doLoad s).expr = s.expr ∧ (doLoad s).sched = s.sched ∧ (doLoad s).fire = s.fire ∧ (doLoad s).keys = s.keys ∧ (doLoad s).heat = s.heat ∧ (doLoad s).pedals = s.pedals ∧ (doLoad s).cue = s.cue := by
  unfold doLoad
  dsimp only
  (repeat' split) <;> simp

@[simp] theorem doUnload_keeps (s : State) :
    (doUnload s).now = s.now ∧ (doUnload s).pending = s.pending ∧ (doUnload s).rst = s.rst ∧ (doUnload s).inh = s.inh ∧ (doUnload s).ntc = s.ntc ∧ (doUnload s).pwait = s.pwait ∧ (doUnload s).spb = s.spb ∧ (doUnload s).pd = s.pd ∧ (doUnload s).kdNext = s.kdNext ∧ (doUnload s).mem = s.mem ∧ (doUnload s).arb = s.arb ∧ (doUnload s).track = s.track ∧ (doUnload s).expr = s.expr ∧ (doUnload s).sched = s.sched ∧ (doUnload s).heat = s.heat ∧ (doUnload s).pedals = s.pedals ∧ (doUnload s).cue = s.cue := by
  unfold doUnload
  (repeat' split) <;> simp

@[simp] theorem doStart_keeps (s : State) :
    (doStart s).now = s.now ∧ (doStart s).pending = s.pending ∧ (doStart s).rst = s.rst ∧ (doStart s).inh = s.inh ∧ (doStart s).ntc = s.ntc ∧ (doStart s).pwait = s.pwait ∧ (doStart s).spb = s.spb ∧ (doStart s).pd = s.pd ∧ (doStart s).kdNext = s.kdNext ∧ (doStart s).mem = s.mem ∧ (doStart s).arb = s.arb ∧ (doStart s).sched = s.sched ∧ (doStart s).fire = s.fire ∧ (doStart s).keys = s.keys ∧ (doStart s).heat = s.heat ∧ (doStart s).pedals = s.pedals ∧ (doStart s).cue = s.cue ∧ (doStart s).shadow = s.shadow := by
  unfold doStart
  dsimp only
  (repeat' split) <;> simp

@[simp] theorem doHold_keeps (s : State) :
    (doHold s).now = s.now ∧ (doHold s).pending = s.pending ∧ (doHold s).rst = s.rst ∧ (doHold s).inh = s.inh ∧ (doHold s).ntc = s.ntc ∧ (doHold s).pwait = s.pwait ∧ (doHold s).spb = s.spb ∧ (doHold s).pd = s.pd ∧ (doHold s).kdNext = s.kdNext ∧ (doHold s).mem = s.mem ∧ (doHold s).arb = s.arb ∧ (doHold s).ring = s.ring ∧ (doHold s).track = s.track ∧ (doHold s).expr = s.expr ∧ (doHold s).sched = s.sched ∧ (doHold s).fire = s.fire ∧ (doHold s).keys = s.keys ∧ (doHold s).heat = s.heat ∧ (doHold s).pedals = s.pedals ∧ (doHold s).cue = s.cue ∧ (doHold s).shadow = s.shadow := by
  unfold doHold
  (repeat' split) <;> simp

@[simp] theorem doResume_keeps (s : State) :
    (doResume s).now = s.now ∧ (doResume s).pending = s.pending ∧ (doResume s).rst = s.rst ∧ (doResume s).inh = s.inh ∧ (doResume s).ntc = s.ntc ∧ (doResume s).pwait = s.pwait ∧ (doResume s).spb = s.spb ∧ (doResume s).pd = s.pd ∧ (doResume s).kdNext = s.kdNext ∧ (doResume s).mem = s.mem ∧ (doResume s).arb = s.arb ∧ (doResume s).sched = s.sched ∧ (doResume s).fire = s.fire ∧ (doResume s).keys = s.keys ∧ (doResume s).heat = s.heat ∧ (doResume s).pedals = s.pedals ∧ (doResume s).cue = s.cue ∧ (doResume s).shadow = s.shadow := by
  unfold doResume
  dsimp only
  (repeat' split) <;> simp

@[simp] theorem doStep_keeps (s : State) :
    (doStep s).now = s.now ∧ (doStep s).pending = s.pending ∧ (doStep s).rst = s.rst ∧ (doStep s).inh = s.inh ∧ (doStep s).ntc = s.ntc ∧ (doStep s).pwait = s.pwait ∧ (doStep s).spb = s.spb ∧ (doStep s).pd = s.pd ∧ (doStep s).kdNext = s.kdNext ∧ (doStep s).mem = s.mem ∧ (doStep s).arb = s.arb ∧ (doStep s).sched = s.sched ∧ (doStep s).fire = s.fire ∧ (doStep s).keys = s.keys ∧ (doStep s).heat = s.heat ∧ (doStep s).pedals = s.pedals ∧ (doStep s).cue = s.cue ∧ (doStep s).shadow = s.shadow ∧ (doStep s).report = s.report := by
  unfold doStep
  dsimp only
  (repeat' split) <;> simp

@[simp] theorem doStop_keeps (s : State) :
    (doStop s).now = s.now ∧ (doStop s).pending = s.pending ∧ (doStop s).rst = s.rst ∧ (doStop s).inh = s.inh ∧ (doStop s).ntc = s.ntc ∧ (doStop s).pwait = s.pwait ∧ (doStop s).spb = s.spb ∧ (doStop s).pd = s.pd ∧ (doStop s).kdNext = s.kdNext ∧ (doStop s).mem = s.mem ∧ (doStop s).expr = s.expr ∧ (doStop s).heat = s.heat ∧ (doStop s).shadow = s.shadow ∧ (doStop s).report = s.report := by
  unfold doStop
  (repeat' split) <;> simp

@[simp] theorem doSilence_keeps (s : State) :
    (doSilence s).now = s.now ∧ (doSilence s).pending = s.pending ∧ (doSilence s).rst = s.rst ∧ (doSilence s).inh = s.inh ∧ (doSilence s).ntc = s.ntc ∧ (doSilence s).pwait = s.pwait ∧ (doSilence s).spb = s.spb ∧ (doSilence s).pd = s.pd ∧ (doSilence s).kdNext = s.kdNext ∧ (doSilence s).mem = s.mem ∧ (doSilence s).expr = s.expr ∧ (doSilence s).heat = s.heat ∧ (doSilence s).shadow = s.shadow ∧ (doSilence s).report = s.report := by
  unfold doSilence
  (repeat' split) <;> simp

@[simp] theorem doCueClear_keeps (s : State) :
    (doCueClear s).now = s.now ∧ (doCueClear s).pending = s.pending ∧ (doCueClear s).rst = s.rst ∧ (doCueClear s).inh = s.inh ∧ (doCueClear s).ntc = s.ntc ∧ (doCueClear s).pwait = s.pwait ∧ (doCueClear s).spb = s.spb ∧ (doCueClear s).pd = s.pd ∧ (doCueClear s).kdNext = s.kdNext ∧ (doCueClear s).mem = s.mem ∧ (doCueClear s).arb = s.arb ∧ (doCueClear s).ring = s.ring ∧ (doCueClear s).track = s.track ∧ (doCueClear s).clock = s.clock ∧ (doCueClear s).expr = s.expr ∧ (doCueClear s).sched = s.sched ∧ (doCueClear s).fire = s.fire ∧ (doCueClear s).keys = s.keys ∧ (doCueClear s).heat = s.heat ∧ (doCueClear s).pedals = s.pedals ∧ (doCueClear s).shadow = s.shadow ∧ (doCueClear s).report = s.report := by
  unfold doCueClear
  (repeat' split) <;> simp

@[simp] theorem actOn_keeps (c : Command) (s : State) :
    (actOn c s).now = s.now ∧ (actOn c s).pending = s.pending ∧ (actOn c s).rst = s.rst ∧ (actOn c s).inh = s.inh ∧ (actOn c s).ntc = s.ntc ∧ (actOn c s).pwait = s.pwait ∧ (actOn c s).spb = s.spb ∧ (actOn c s).pd = s.pd ∧ (actOn c s).kdNext = s.kdNext ∧ (actOn c s).mem = s.mem ∧ (actOn c s).heat = s.heat := by
  unfold actOn
  (repeat' split) <;> simp

@[simp] theorem takeCommand_keeps (code : Nat) (s : State) :
    (takeCommand code s).now = s.now ∧ (takeCommand code s).pending = s.pending ∧ (takeCommand code s).rst = s.rst ∧ (takeCommand code s).inh = s.inh ∧ (takeCommand code s).ntc = s.ntc ∧ (takeCommand code s).pwait = s.pwait ∧ (takeCommand code s).spb = s.spb ∧ (takeCommand code s).pd = s.pd ∧ (takeCommand code s).kdNext = s.kdNext ∧ (takeCommand code s).mem = s.mem ∧ (takeCommand code s).heat = s.heat := by
  unfold takeCommand
  dsimp only
  (repeat' split) <;> simp

end Sys2Proof.Machine
end

