-- ==== Sys2Proof/Laws/KeepWindow.lean ====
section
/-! SUPPORT. What the processor port, the grants and the end of a row keep: one lemma for each operation, the fields of State it leaves alone. -/

namespace Sys2Proof.Machine

@[simp] theorem takeNotice_keeps (off : Nat) (w : Word) (s : State) :
    (takeNotice off w s).now = s.now ∧ (takeNotice off w s).pending = s.pending ∧ (takeNotice off w s).rst = s.rst ∧ (takeNotice off w s).inh = s.inh ∧ (takeNotice off w s).ntc = s.ntc ∧ (takeNotice off w s).pwait = s.pwait ∧ (takeNotice off w s).spb = s.spb ∧ (takeNotice off w s).pd = s.pd ∧ (takeNotice off w s).kdNext = s.kdNext ∧ (takeNotice off w s).mem = s.mem ∧ (takeNotice off w s).arb = s.arb ∧ (takeNotice off w s).ring = s.ring ∧ (takeNotice off w s).track = s.track ∧ (takeNotice off w s).clock = s.clock ∧ (takeNotice off w s).expr = s.expr ∧ (takeNotice off w s).sched = s.sched ∧ (takeNotice off w s).fire = s.fire ∧ (takeNotice off w s).keys = s.keys ∧ (takeNotice off w s).heat = s.heat ∧ (takeNotice off w s).pedals = s.pedals ∧ (takeNotice off w s).cue = s.cue ∧ (takeNotice off w s).shadow = s.shadow := by
  unfold takeNotice
  (repeat' split) <;> simp

@[simp] theorem takeField_keeps (off : Nat) (w : Word) (c : ProcCycle) (s : State) :
    (takeField off w c s).now = s.now ∧ (takeField off w c s).pending = s.pending ∧ (takeField off w c s).rst = s.rst ∧ (takeField off w c s).inh = s.inh ∧ (takeField off w c s).ntc = s.ntc ∧ (takeField off w c s).pwait = s.pwait ∧ (takeField off w c s).spb = s.spb ∧ (takeField off w c s).pd = s.pd ∧ (takeField off w c s).kdNext = s.kdNext ∧ (takeField off w c s).arb = s.arb ∧ (takeField off w c s).ring = s.ring ∧ (takeField off w c s).track = s.track ∧ (takeField off w c s).clock = s.clock ∧ (takeField off w c s).expr = s.expr ∧ (takeField off w c s).sched = s.sched ∧ (takeField off w c s).fire = s.fire ∧ (takeField off w c s).keys = s.keys ∧ (takeField off w c s).heat = s.heat ∧ (takeField off w c s).pedals = s.pedals ∧ (takeField off w c s).cue = s.cue := by
  unfold takeField
  (repeat' split) <;> simp

@[simp] theorem liveEffect_keeps (off : Nat) (w : Word) (s : State) :
    (liveEffect off w s).now = s.now ∧ (liveEffect off w s).pending = s.pending ∧ (liveEffect off w s).rst = s.rst ∧ (liveEffect off w s).inh = s.inh ∧ (liveEffect off w s).ntc = s.ntc ∧ (liveEffect off w s).pwait = s.pwait ∧ (liveEffect off w s).spb = s.spb ∧ (liveEffect off w s).pd = s.pd ∧ (liveEffect off w s).kdNext = s.kdNext ∧ (liveEffect off w s).mem = s.mem ∧ (liveEffect off w s).arb = s.arb ∧ (liveEffect off w s).ring = s.ring ∧ (liveEffect off w s).track = s.track ∧ (liveEffect off w s).clock = s.clock ∧ (liveEffect off w s).expr = s.expr ∧ (liveEffect off w s).heat = s.heat ∧ (liveEffect off w s).pedals = s.pedals ∧ (liveEffect off w s).shadow = s.shadow := by
  unfold liveEffect
  (repeat' split) <;> simp

@[simp] theorem refuseRange_keeps (off : Nat) (s : State) :
    (refuseRange off s).now = s.now ∧ (refuseRange off s).pending = s.pending ∧ (refuseRange off s).rst = s.rst ∧ (refuseRange off s).inh = s.inh ∧ (refuseRange off s).ntc = s.ntc ∧ (refuseRange off s).pwait = s.pwait ∧ (refuseRange off s).spb = s.spb ∧ (refuseRange off s).pd = s.pd ∧ (refuseRange off s).kdNext = s.kdNext ∧ (refuseRange off s).mem = s.mem ∧ (refuseRange off s).arb = s.arb ∧ (refuseRange off s).ring = s.ring ∧ (refuseRange off s).track = s.track ∧ (refuseRange off s).clock = s.clock ∧ (refuseRange off s).expr = s.expr ∧ (refuseRange off s).sched = s.sched ∧ (refuseRange off s).fire = s.fire ∧ (refuseRange off s).keys = s.keys ∧ (refuseRange off s).heat = s.heat ∧ (refuseRange off s).pedals = s.pedals ∧ (refuseRange off s).cue = s.cue ∧ (refuseRange off s).shadow = s.shadow := by
  unfold refuseRange
  (repeat' split) <;> simp

@[simp] theorem liveWrite_keeps (off : Nat) (c : ProcCycle) (s : State) :
    (liveWrite off c s).now = s.now ∧ (liveWrite off c s).pending = s.pending ∧ (liveWrite off c s).rst = s.rst ∧ (liveWrite off c s).inh = s.inh ∧ (liveWrite off c s).ntc = s.ntc ∧ (liveWrite off c s).pwait = s.pwait ∧ (liveWrite off c s).spb = s.spb ∧ (liveWrite off c s).pd = s.pd ∧ (liveWrite off c s).kdNext = s.kdNext ∧ (liveWrite off c s).arb = s.arb ∧ (liveWrite off c s).ring = s.ring ∧ (liveWrite off c s).track = s.track ∧ (liveWrite off c s).clock = s.clock ∧ (liveWrite off c s).expr = s.expr ∧ (liveWrite off c s).heat = s.heat ∧ (liveWrite off c s).pedals = s.pedals := by
  unfold liveWrite
  dsimp only
  (repeat' split) <;> simp

@[simp] theorem guardedWrite_keeps (off : Nat) (c : ProcCycle) (s : State) :
    (guardedWrite off c s).now = s.now ∧ (guardedWrite off c s).pending = s.pending ∧ (guardedWrite off c s).rst = s.rst ∧ (guardedWrite off c s).inh = s.inh ∧ (guardedWrite off c s).ntc = s.ntc ∧ (guardedWrite off c s).pwait = s.pwait ∧ (guardedWrite off c s).spb = s.spb ∧ (guardedWrite off c s).pd = s.pd ∧ (guardedWrite off c s).kdNext = s.kdNext ∧ (guardedWrite off c s).arb = s.arb ∧ (guardedWrite off c s).ring = s.ring ∧ (guardedWrite off c s).track = s.track ∧ (guardedWrite off c s).clock = s.clock ∧ (guardedWrite off c s).expr = s.expr ∧ (guardedWrite off c s).sched = s.sched ∧ (guardedWrite off c s).fire = s.fire ∧ (guardedWrite off c s).keys = s.keys ∧ (guardedWrite off c s).heat = s.heat ∧ (guardedWrite off c s).pedals = s.pedals ∧ (guardedWrite off c s).cue = s.cue ∧ (guardedWrite off c s).shadow = s.shadow := by
  unfold guardedWrite
  (repeat' split) <;> simp

@[simp] theorem argWrite_keeps (c : ProcCycle) (s : State) :
    (argWrite c s).now = s.now ∧ (argWrite c s).pending = s.pending ∧ (argWrite c s).rst = s.rst ∧ (argWrite c s).inh = s.inh ∧ (argWrite c s).ntc = s.ntc ∧ (argWrite c s).pwait = s.pwait ∧ (argWrite c s).spb = s.spb ∧ (argWrite c s).pd = s.pd ∧ (argWrite c s).kdNext = s.kdNext ∧ (argWrite c s).arb = s.arb ∧ (argWrite c s).ring = s.ring ∧ (argWrite c s).track = s.track ∧ (argWrite c s).clock = s.clock ∧ (argWrite c s).expr = s.expr ∧ (argWrite c s).sched = s.sched ∧ (argWrite c s).fire = s.fire ∧ (argWrite c s).keys = s.keys ∧ (argWrite c s).heat = s.heat ∧ (argWrite c s).pedals = s.pedals ∧ (argWrite c s).cue = s.cue ∧ (argWrite c s).report = s.report ∧ (argWrite c s).updates = s.updates := by
  unfold argWrite
  (repeat' split) <;> simp

@[simp] theorem commandTaken_keeps (c : ProcCycle) (s : State) :
    (commandTaken c s).now = s.now ∧ (commandTaken c s).pending = s.pending ∧ (commandTaken c s).rst = s.rst ∧ (commandTaken c s).inh = s.inh ∧ (commandTaken c s).ntc = s.ntc ∧ (commandTaken c s).pwait = s.pwait ∧ (commandTaken c s).spb = s.spb ∧ (commandTaken c s).pd = s.pd ∧ (commandTaken c s).kdNext = s.kdNext ∧ (commandTaken c s).heat = s.heat := by
  unfold commandTaken
  (repeat' split) <;> simp

@[simp] theorem setupWrite_keeps (off : Nat) (c : ProcCycle) (s : State) :
    (setupWrite off c s).now = s.now ∧ (setupWrite off c s).pending = s.pending ∧ (setupWrite off c s).rst = s.rst ∧ (setupWrite off c s).inh = s.inh ∧ (setupWrite off c s).ntc = s.ntc ∧ (setupWrite off c s).pwait = s.pwait ∧ (setupWrite off c s).spb = s.spb ∧ (setupWrite off c s).pd = s.pd ∧ (setupWrite off c s).kdNext = s.kdNext ∧ (setupWrite off c s).heat = s.heat := by
  unfold setupWrite
  (repeat' split) <;> simp

@[simp] theorem completeSlot_keeps (i : Fin 128) (s : State) :
    (completeSlot i s).now = s.now ∧ (completeSlot i s).pending = s.pending ∧ (completeSlot i s).rst = s.rst ∧ (completeSlot i s).inh = s.inh ∧ (completeSlot i s).ntc = s.ntc ∧ (completeSlot i s).pwait = s.pwait ∧ (completeSlot i s).spb = s.spb ∧ (completeSlot i s).pd = s.pd ∧ (completeSlot i s).kdNext = s.kdNext ∧ (completeSlot i s).mem = s.mem ∧ (completeSlot i s).arb = s.arb ∧ (completeSlot i s).track = s.track ∧ (completeSlot i s).expr = s.expr ∧ (completeSlot i s).sched = s.sched ∧ (completeSlot i s).fire = s.fire ∧ (completeSlot i s).keys = s.keys ∧ (completeSlot i s).heat = s.heat ∧ (completeSlot i s).pedals = s.pedals ∧ (completeSlot i s).cue = s.cue ∧ (completeSlot i s).shadow = s.shadow := by
  unfold completeSlot
  dsimp only
  (repeat' split) <;> simp

@[simp] theorem tearSlot_keeps (i : Fin 128) (s : State) :
    (tearSlot i s).now = s.now ∧ (tearSlot i s).pending = s.pending ∧ (tearSlot i s).rst = s.rst ∧ (tearSlot i s).inh = s.inh ∧ (tearSlot i s).ntc = s.ntc ∧ (tearSlot i s).pwait = s.pwait ∧ (tearSlot i s).spb = s.spb ∧ (tearSlot i s).pd = s.pd ∧ (tearSlot i s).kdNext = s.kdNext ∧ (tearSlot i s).mem = s.mem ∧ (tearSlot i s).arb = s.arb ∧ (tearSlot i s).track = s.track ∧ (tearSlot i s).clock = s.clock ∧ (tearSlot i s).expr = s.expr ∧ (tearSlot i s).sched = s.sched ∧ (tearSlot i s).fire = s.fire ∧ (tearSlot i s).keys = s.keys ∧ (tearSlot i s).heat = s.heat ∧ (tearSlot i s).pedals = s.pedals ∧ (tearSlot i s).cue = s.cue ∧ (tearSlot i s).shadow = s.shadow := by
  unfold tearSlot
  (repeat' split) <;> simp

@[simp] theorem fillSlot_keeps (i : Fin 128) (w : Nat) (s : State) :
    (fillSlot i w s).now = s.now ∧ (fillSlot i w s).pending = s.pending ∧ (fillSlot i w s).rst = s.rst ∧ (fillSlot i w s).inh = s.inh ∧ (fillSlot i w s).ntc = s.ntc ∧ (fillSlot i w s).pwait = s.pwait ∧ (fillSlot i w s).spb = s.spb ∧ (fillSlot i w s).pd = s.pd ∧ (fillSlot i w s).kdNext = s.kdNext ∧ (fillSlot i w s).mem = s.mem ∧ (fillSlot i w s).arb = s.arb ∧ (fillSlot i w s).track = s.track ∧ (fillSlot i w s).expr = s.expr ∧ (fillSlot i w s).sched = s.sched ∧ (fillSlot i w s).fire = s.fire ∧ (fillSlot i w s).keys = s.keys ∧ (fillSlot i w s).heat = s.heat ∧ (fillSlot i w s).pedals = s.pedals ∧ (fillSlot i w s).cue = s.cue ∧ (fillSlot i w s).shadow = s.shadow := by
  unfold fillSlot
  (repeat' split) <;> simp

@[simp] theorem overrun_keeps (i : Fin 128) (w : Nat) (s : State) :
    (overrun i w s).now = s.now ∧ (overrun i w s).pending = s.pending ∧ (overrun i w s).rst = s.rst ∧ (overrun i w s).inh = s.inh ∧ (overrun i w s).ntc = s.ntc ∧ (overrun i w s).pwait = s.pwait ∧ (overrun i w s).spb = s.spb ∧ (overrun i w s).pd = s.pd ∧ (overrun i w s).kdNext = s.kdNext ∧ (overrun i w s).mem = s.mem ∧ (overrun i w s).arb = s.arb ∧ (overrun i w s).track = s.track ∧ (overrun i w s).clock = s.clock ∧ (overrun i w s).expr = s.expr ∧ (overrun i w s).sched = s.sched ∧ (overrun i w s).fire = s.fire ∧ (overrun i w s).keys = s.keys ∧ (overrun i w s).heat = s.heat ∧ (overrun i w s).pedals = s.pedals ∧ (overrun i w s).cue = s.cue ∧ (overrun i w s).shadow = s.shadow := by
  unfold overrun
  (repeat' split) <;> simp

@[simp] theorem ringWrite_keeps (i : Fin 128) (w : Nat) (c : ProcCycle) (s : State) :
    (ringWrite i w c s).now = s.now ∧ (ringWrite i w c s).pending = s.pending ∧ (ringWrite i w c s).rst = s.rst ∧ (ringWrite i w c s).inh = s.inh ∧ (ringWrite i w c s).ntc = s.ntc ∧ (ringWrite i w c s).pwait = s.pwait ∧ (ringWrite i w c s).spb = s.spb ∧ (ringWrite i w c s).pd = s.pd ∧ (ringWrite i w c s).kdNext = s.kdNext ∧ (ringWrite i w c s).arb = s.arb ∧ (ringWrite i w c s).track = s.track ∧ (ringWrite i w c s).expr = s.expr ∧ (ringWrite i w c s).sched = s.sched ∧ (ringWrite i w c s).fire = s.fire ∧ (ringWrite i w c s).keys = s.keys ∧ (ringWrite i w c s).heat = s.heat ∧ (ringWrite i w c s).pedals = s.pedals ∧ (ringWrite i w c s).cue = s.cue ∧ (ringWrite i w c s).shadow = s.shadow := by
  unfold ringWrite
  (repeat' split) <;> simp

@[simp] theorem writeEffect_keeps (c : ProcCycle) (s : State) :
    (writeEffect c s).now = s.now ∧ (writeEffect c s).pending = s.pending ∧ (writeEffect c s).rst = s.rst ∧ (writeEffect c s).inh = s.inh ∧ (writeEffect c s).ntc = s.ntc ∧ (writeEffect c s).pwait = s.pwait ∧ (writeEffect c s).spb = s.spb ∧ (writeEffect c s).pd = s.pd ∧ (writeEffect c s).kdNext = s.kdNext ∧ (writeEffect c s).heat = s.heat := by
  unfold writeEffect
  (repeat' split) <;> simp

@[simp] theorem completeCycle_keeps (c : ProcCycle) (s : State) :
    (completeCycle c s).now = s.now ∧ (completeCycle c s).pending = s.pending ∧ (completeCycle c s).rst = s.rst ∧ (completeCycle c s).inh = s.inh ∧ (completeCycle c s).ntc = s.ntc ∧ (completeCycle c s).pwait = s.pwait ∧ (completeCycle c s).spb = s.spb ∧ (completeCycle c s).kdNext = s.kdNext ∧ (completeCycle c s).heat = s.heat := by
  unfold completeCycle showAround
  (repeat' split) <;> simp

@[simp] theorem arriveCycle_keeps (c : ProcCycle) (s : State) :
    (arriveCycle c s).now = s.now ∧ (arriveCycle c s).pending = s.pending ∧ (arriveCycle c s).rst = s.rst ∧ (arriveCycle c s).inh = s.inh ∧ (arriveCycle c s).ntc = s.ntc ∧ (arriveCycle c s).pwait = s.pwait ∧ (arriveCycle c s).spb = s.spb ∧ (arriveCycle c s).kdNext = s.kdNext ∧ (arriveCycle c s).heat = s.heat := by
  unfold arriveCycle
  (repeat' split) <;> simp

@[simp] theorem serveWaiting_keeps (s : State) :
    (serveWaiting s).now = s.now ∧ (serveWaiting s).pending = s.pending ∧ (serveWaiting s).rst = s.rst ∧ (serveWaiting s).inh = s.inh ∧ (serveWaiting s).ntc = s.ntc ∧ (serveWaiting s).pwait = s.pwait ∧ (serveWaiting s).spb = s.spb ∧ (serveWaiting s).kdNext = s.kdNext ∧ (serveWaiting s).heat = s.heat := by
  unfold serveWaiting
  (repeat' split) <;> simp

@[simp] theorem releaseCommand_keeps (c : ProcCycle) (w : Word) (s : State) :
    (releaseCommand c w s).now = s.now ∧ (releaseCommand c w s).pending = s.pending ∧ (releaseCommand c w s).rst = s.rst ∧ (releaseCommand c w s).inh = s.inh ∧ (releaseCommand c w s).ntc = s.ntc ∧ (releaseCommand c w s).pwait = s.pwait ∧ (releaseCommand c w s).spb = s.spb ∧ (releaseCommand c w s).pd = s.pd ∧ (releaseCommand c w s).kdNext = s.kdNext ∧ (releaseCommand c w s).heat = s.heat := by
  unfold releaseCommand showAround
  (repeat' split) <;> simp

@[simp] theorem grantStatus_keeps (s : State) :
    (grantStatus s).now = s.now ∧ (grantStatus s).pending = s.pending ∧ (grantStatus s).rst = s.rst ∧ (grantStatus s).inh = s.inh ∧ (grantStatus s).ntc = s.ntc ∧ (grantStatus s).pwait = s.pwait ∧ (grantStatus s).spb = s.spb ∧ (grantStatus s).pd = s.pd ∧ (grantStatus s).kdNext = s.kdNext ∧ (grantStatus s).mem = s.mem ∧ (grantStatus s).ring = s.ring ∧ (grantStatus s).track = s.track ∧ (grantStatus s).clock = s.clock ∧ (grantStatus s).expr = s.expr ∧ (grantStatus s).sched = s.sched ∧ (grantStatus s).fire = s.fire ∧ (grantStatus s).keys = s.keys ∧ (grantStatus s).heat = s.heat ∧ (grantStatus s).pedals = s.pedals ∧ (grantStatus s).cue = s.cue ∧ (grantStatus s).report = s.report := by
  unfold grantStatus
  (repeat' split) <;> simp

@[simp] theorem grantPort_keeps (s : State) :
    (grantPort s).now = s.now ∧ (grantPort s).pending = s.pending ∧ (grantPort s).rst = s.rst ∧ (grantPort s).inh = s.inh ∧ (grantPort s).ntc = s.ntc ∧ (grantPort s).pwait = s.pwait ∧ (grantPort s).spb = s.spb ∧ (grantPort s).pd = s.pd ∧ (grantPort s).kdNext = s.kdNext ∧ (grantPort s).mem = s.mem ∧ (grantPort s).ring = s.ring ∧ (grantPort s).track = s.track ∧ (grantPort s).clock = s.clock ∧ (grantPort s).expr = s.expr ∧ (grantPort s).sched = s.sched ∧ (grantPort s).fire = s.fire ∧ (grantPort s).keys = s.keys ∧ (grantPort s).heat = s.heat ∧ (grantPort s).pedals = s.pedals ∧ (grantPort s).cue = s.cue ∧ (grantPort s).report = s.report := by
  unfold grantPort
  (repeat' split) <;> simp

@[simp] theorem straightCycle_keeps (c : ProcCycle) (s : State) :
    (straightCycle c s).now = s.now ∧ (straightCycle c s).pending = s.pending ∧ (straightCycle c s).rst = s.rst ∧ (straightCycle c s).inh = s.inh ∧ (straightCycle c s).ntc = s.ntc ∧ (straightCycle c s).pwait = s.pwait ∧ (straightCycle c s).spb = s.spb ∧ (straightCycle c s).kdNext = s.kdNext ∧ (straightCycle c s).arb = s.arb ∧ (straightCycle c s).ring = s.ring ∧ (straightCycle c s).track = s.track ∧ (straightCycle c s).clock = s.clock ∧ (straightCycle c s).expr = s.expr ∧ (straightCycle c s).sched = s.sched ∧ (straightCycle c s).fire = s.fire ∧ (straightCycle c s).keys = s.keys ∧ (straightCycle c s).heat = s.heat ∧ (straightCycle c s).pedals = s.pedals ∧ (straightCycle c s).cue = s.cue ∧ (straightCycle c s).shadow = s.shadow ∧ (straightCycle c s).report = s.report ∧ (straightCycle c s).updates = s.updates := by
  unfold straightCycle
  (repeat' split) <;> simp

end Sys2Proof.Machine
end

