-- ==== Sys2Proof/Laws/KeepRows.lean ====
section
/-! SUPPORT. What the effects of the rows keep: one lemma for each operation, the fields of State it leaves alone. -/

namespace Sys2Proof.Machine

@[simp] theorem onCommandArgRead_keeps (s : State) :
    (onCommandArgRead s).now = s.now ∧ (onCommandArgRead s).pending = s.pending ∧ (onCommandArgRead s).rst = s.rst ∧ (onCommandArgRead s).inh = s.inh ∧ (onCommandArgRead s).ntc = s.ntc ∧ (onCommandArgRead s).pwait = s.pwait ∧ (onCommandArgRead s).spb = s.spb ∧ (onCommandArgRead s).kdNext = s.kdNext ∧ (onCommandArgRead s).heat = s.heat := by
  unfold onCommandArgRead
  (repeat' split) <;> simp

@[simp] theorem onLineDue_keeps (s : State) :
    (onLineDue s).now = s.now ∧ (onLineDue s).pending = s.pending ∧ (onLineDue s).rst = s.rst ∧ (onLineDue s).inh = s.inh ∧ (onLineDue s).ntc = s.ntc ∧ (onLineDue s).pwait = s.pwait ∧ (onLineDue s).spb = s.spb ∧ (onLineDue s).pd = s.pd ∧ (onLineDue s).kdNext = s.kdNext ∧ (onLineDue s).mem = s.mem ∧ (onLineDue s).arb = s.arb ∧ (onLineDue s).track = s.track ∧ (onLineDue s).expr = s.expr ∧ (onLineDue s).sched = s.sched ∧ (onLineDue s).fire = s.fire ∧ (onLineDue s).keys = s.keys ∧ (onLineDue s).heat = s.heat ∧ (onLineDue s).pedals = s.pedals ∧ (onLineDue s).cue = s.cue ∧ (onLineDue s).shadow = s.shadow := by
  unfold onLineDue
  (repeat' split) <;> simp

@[simp] theorem onLineFetchWord_keeps (s : State) :
    (onLineFetchWord s).now = s.now ∧ (onLineFetchWord s).pending = s.pending ∧ (onLineFetchWord s).rst = s.rst ∧ (onLineFetchWord s).inh = s.inh ∧ (onLineFetchWord s).ntc = s.ntc ∧ (onLineFetchWord s).pwait = s.pwait ∧ (onLineFetchWord s).spb = s.spb ∧ (onLineFetchWord s).kdNext = s.kdNext ∧ (onLineFetchWord s).heat = s.heat := by
  unfold onLineFetchWord
  (repeat' split) <;> simp

@[simp] theorem onDecodeStage_keeps (upTo : Option Key) (s : State) :
    (onDecodeStage upTo s).now = s.now ∧ (onDecodeStage upTo s).pending = s.pending ∧ (onDecodeStage upTo s).rst = s.rst ∧ (onDecodeStage upTo s).inh = s.inh ∧ (onDecodeStage upTo s).ntc = s.ntc ∧ (onDecodeStage upTo s).pwait = s.pwait ∧ (onDecodeStage upTo s).spb = s.spb ∧ (onDecodeStage upTo s).pd = s.pd ∧ (onDecodeStage upTo s).kdNext = s.kdNext ∧ (onDecodeStage upTo s).mem = s.mem ∧ (onDecodeStage upTo s).arb = s.arb ∧ (onDecodeStage upTo s).ring = s.ring ∧ (onDecodeStage upTo s).heat = s.heat ∧ (onDecodeStage upTo s).shadow = s.shadow := by
  unfold onDecodeStage
  (repeat' split) <;> simp

@[simp] theorem onLineBoundary_keeps (s : State) :
    (onLineBoundary s).now = s.now ∧ (onLineBoundary s).pending = s.pending ∧ (onLineBoundary s).rst = s.rst ∧ (onLineBoundary s).inh = s.inh ∧ (onLineBoundary s).ntc = s.ntc ∧ (onLineBoundary s).pwait = s.pwait ∧ (onLineBoundary s).spb = s.spb ∧ (onLineBoundary s).pd = s.pd ∧ (onLineBoundary s).kdNext = s.kdNext ∧ (onLineBoundary s).mem = s.mem ∧ (onLineBoundary s).arb = s.arb ∧ (onLineBoundary s).expr = s.expr ∧ (onLineBoundary s).sched = s.sched ∧ (onLineBoundary s).fire = s.fire ∧ (onLineBoundary s).keys = s.keys ∧ (onLineBoundary s).heat = s.heat ∧ (onLineBoundary s).pedals = s.pedals ∧ (onLineBoundary s).shadow = s.shadow := by
  unfold onLineBoundary
  (repeat' split) <;> simp

@[simp] theorem onStarvationExpiry_keeps (s : State) :
    (onStarvationExpiry s).now = s.now ∧ (onStarvationExpiry s).pending = s.pending ∧ (onStarvationExpiry s).rst = s.rst ∧ (onStarvationExpiry s).inh = s.inh ∧ (onStarvationExpiry s).ntc = s.ntc ∧ (onStarvationExpiry s).pwait = s.pwait ∧ (onStarvationExpiry s).spb = s.spb ∧ (onStarvationExpiry s).pd = s.pd ∧ (onStarvationExpiry s).kdNext = s.kdNext ∧ (onStarvationExpiry s).mem = s.mem ∧ (onStarvationExpiry s).expr = s.expr ∧ (onStarvationExpiry s).heat = s.heat ∧ (onStarvationExpiry s).shadow = s.shadow ∧ (onStarvationExpiry s).report = s.report := by
  unfold onStarvationExpiry
  (repeat' split) <;> simp

@[simp] theorem onExpressionStep_keeps (s : State) :
    (onExpressionStep s).now = s.now ∧ (onExpressionStep s).pending = s.pending ∧ (onExpressionStep s).rst = s.rst ∧ (onExpressionStep s).inh = s.inh ∧ (onExpressionStep s).ntc = s.ntc ∧ (onExpressionStep s).pwait = s.pwait ∧ (onExpressionStep s).spb = s.spb ∧ (onExpressionStep s).pd = s.pd ∧ (onExpressionStep s).kdNext = s.kdNext ∧ (onExpressionStep s).mem = s.mem ∧ (onExpressionStep s).arb = s.arb ∧ (onExpressionStep s).ring = s.ring ∧ (onExpressionStep s).track = s.track ∧ (onExpressionStep s).sched = s.sched ∧ (onExpressionStep s).fire = s.fire ∧ (onExpressionStep s).keys = s.keys ∧ (onExpressionStep s).heat = s.heat ∧ (onExpressionStep s).pedals = s.pedals ∧ (onExpressionStep s).cue = s.cue ∧ (onExpressionStep s).shadow = s.shadow ∧ (onExpressionStep s).report = s.report := by
  unfold onExpressionStep
  (repeat' split) <;> simp

@[simp] theorem onEndingDrain_keeps (s : State) :
    (onEndingDrain s).now = s.now ∧ (onEndingDrain s).pending = s.pending ∧ (onEndingDrain s).rst = s.rst ∧ (onEndingDrain s).inh = s.inh ∧ (onEndingDrain s).ntc = s.ntc ∧ (onEndingDrain s).pwait = s.pwait ∧ (onEndingDrain s).spb = s.spb ∧ (onEndingDrain s).pd = s.pd ∧ (onEndingDrain s).kdNext = s.kdNext ∧ (onEndingDrain s).mem = s.mem ∧ (onEndingDrain s).arb = s.arb ∧ (onEndingDrain s).ring = s.ring ∧ (onEndingDrain s).track = s.track ∧ (onEndingDrain s).expr = s.expr ∧ (onEndingDrain s).sched = s.sched ∧ (onEndingDrain s).fire = s.fire ∧ (onEndingDrain s).keys = s.keys ∧ (onEndingDrain s).heat = s.heat ∧ (onEndingDrain s).cue = s.cue ∧ (onEndingDrain s).shadow = s.shadow ∧ (onEndingDrain s).report = s.report := by
  unfold onEndingDrain
  (repeat' split) <;> simp

@[simp] theorem onEndingSettled_keeps (s : State) :
    (onEndingSettled s).now = s.now ∧ (onEndingSettled s).pending = s.pending ∧ (onEndingSettled s).rst = s.rst ∧ (onEndingSettled s).inh = s.inh ∧ (onEndingSettled s).ntc = s.ntc ∧ (onEndingSettled s).pwait = s.pwait ∧ (onEndingSettled s).spb = s.spb ∧ (onEndingSettled s).pd = s.pd ∧ (onEndingSettled s).kdNext = s.kdNext ∧ (onEndingSettled s).mem = s.mem ∧ (onEndingSettled s).arb = s.arb ∧ (onEndingSettled s).track = s.track ∧ (onEndingSettled s).expr = s.expr ∧ (onEndingSettled s).sched = s.sched ∧ (onEndingSettled s).fire = s.fire ∧ (onEndingSettled s).keys = s.keys ∧ (onEndingSettled s).heat = s.heat ∧ (onEndingSettled s).pedals = s.pedals ∧ (onEndingSettled s).cue = s.cue ∧ (onEndingSettled s).shadow = s.shadow := by
  unfold onEndingSettled
  (repeat' split) <;> simp

@[simp] theorem onStoppingComplete_keeps (s : State) :
    (onStoppingComplete s).now = s.now ∧ (onStoppingComplete s).pending = s.pending ∧ (onStoppingComplete s).rst = s.rst ∧ (onStoppingComplete s).inh = s.inh ∧ (onStoppingComplete s).ntc = s.ntc ∧ (onStoppingComplete s).pwait = s.pwait ∧ (onStoppingComplete s).spb = s.spb ∧ (onStoppingComplete s).pd = s.pd ∧ (onStoppingComplete s).kdNext = s.kdNext ∧ (onStoppingComplete s).mem = s.mem ∧ (onStoppingComplete s).arb = s.arb ∧ (onStoppingComplete s).track = s.track ∧ (onStoppingComplete s).expr = s.expr ∧ (onStoppingComplete s).sched = s.sched ∧ (onStoppingComplete s).fire = s.fire ∧ (onStoppingComplete s).keys = s.keys ∧ (onStoppingComplete s).heat = s.heat ∧ (onStoppingComplete s).pedals = s.pedals ∧ (onStoppingComplete s).cue = s.cue ∧ (onStoppingComplete s).shadow = s.shadow := by
  unfold onStoppingComplete
  (repeat' split) <;> simp

@[simp] theorem onSetupLoadWord_keeps (s : State) :
    (onSetupLoadWord s).now = s.now ∧ (onSetupLoadWord s).pending = s.pending ∧ (onSetupLoadWord s).rst = s.rst ∧ (onSetupLoadWord s).inh = s.inh ∧ (onSetupLoadWord s).ntc = s.ntc ∧ (onSetupLoadWord s).pwait = s.pwait ∧ (onSetupLoadWord s).spb = s.spb ∧ (onSetupLoadWord s).kdNext = s.kdNext := by
  unfold onSetupLoadWord
  (repeat' split) <;> simp

@[simp] theorem onLoaded_keeps (s : State) :
    (onLoaded s).now = s.now ∧ (onLoaded s).pending = s.pending ∧ (onLoaded s).rst = s.rst ∧ (onLoaded s).inh = s.inh ∧ (onLoaded s).ntc = s.ntc ∧ (onLoaded s).pwait = s.pwait ∧ (onLoaded s).spb = s.spb ∧ (onLoaded s).pd = s.pd ∧ (onLoaded s).kdNext = s.kdNext ∧ (onLoaded s).mem = s.mem ∧ (onLoaded s).arb = s.arb ∧ (onLoaded s).ring = s.ring ∧ (onLoaded s).track = s.track ∧ (onLoaded s).expr = s.expr ∧ (onLoaded s).sched = s.sched ∧ (onLoaded s).fire = s.fire ∧ (onLoaded s).keys = s.keys ∧ (onLoaded s).heat = s.heat ∧ (onLoaded s).pedals = s.pedals ∧ (onLoaded s).cue = s.cue ∧ (onLoaded s).shadow = s.shadow := by
  unfold onLoaded
  (repeat' split) <;> simp

@[simp] theorem onScheduleDispatch_keeps (s : State) :
    (onScheduleDispatch s).now = s.now ∧ (onScheduleDispatch s).pending = s.pending ∧ (onScheduleDispatch s).rst = s.rst ∧ (onScheduleDispatch s).inh = s.inh ∧ (onScheduleDispatch s).ntc = s.ntc ∧ (onScheduleDispatch s).pwait = s.pwait ∧ (onScheduleDispatch s).spb = s.spb ∧ (onScheduleDispatch s).pd = s.pd ∧ (onScheduleDispatch s).kdNext = s.kdNext ∧ (onScheduleDispatch s).mem = s.mem ∧ (onScheduleDispatch s).arb = s.arb ∧ (onScheduleDispatch s).ring = s.ring ∧ (onScheduleDispatch s).track = s.track ∧ (onScheduleDispatch s).clock = s.clock ∧ (onScheduleDispatch s).expr = s.expr ∧ (onScheduleDispatch s).heat = s.heat ∧ (onScheduleDispatch s).cue = s.cue ∧ (onScheduleDispatch s).shadow = s.shadow := by
  unfold onScheduleDispatch
  (repeat' split) <;> simp

@[simp] theorem onDropLate_keeps (k : Key) (s : State) :
    (onDropLate k s).now = s.now ∧ (onDropLate k s).pending = s.pending ∧ (onDropLate k s).rst = s.rst ∧ (onDropLate k s).inh = s.inh ∧ (onDropLate k s).ntc = s.ntc ∧ (onDropLate k s).pwait = s.pwait ∧ (onDropLate k s).spb = s.spb ∧ (onDropLate k s).pd = s.pd ∧ (onDropLate k s).kdNext = s.kdNext ∧ (onDropLate k s).mem = s.mem ∧ (onDropLate k s).arb = s.arb ∧ (onDropLate k s).ring = s.ring ∧ (onDropLate k s).track = s.track ∧ (onDropLate k s).clock = s.clock ∧ (onDropLate k s).expr = s.expr ∧ (onDropLate k s).sched = s.sched ∧ (onDropLate k s).heat = s.heat ∧ (onDropLate k s).pedals = s.pedals ∧ (onDropLate k s).cue = s.cue ∧ (onDropLate k s).shadow = s.shadow := by
  unfold onDropLate
  (repeat' split) <;> simp

@[simp] theorem onPulseEnd_keeps (k : Key) (expiryFirst : Bool) (s : State) :
    (onPulseEnd k expiryFirst s).now = s.now ∧ (onPulseEnd k expiryFirst s).pending = s.pending ∧ (onPulseEnd k expiryFirst s).rst = s.rst ∧ (onPulseEnd k expiryFirst s).inh = s.inh ∧ (onPulseEnd k expiryFirst s).ntc = s.ntc ∧ (onPulseEnd k expiryFirst s).pwait = s.pwait ∧ (onPulseEnd k expiryFirst s).spb = s.spb ∧ (onPulseEnd k expiryFirst s).pd = s.pd ∧ (onPulseEnd k expiryFirst s).kdNext = s.kdNext ∧ (onPulseEnd k expiryFirst s).mem = s.mem ∧ (onPulseEnd k expiryFirst s).arb = s.arb ∧ (onPulseEnd k expiryFirst s).ring = s.ring ∧ (onPulseEnd k expiryFirst s).track = s.track ∧ (onPulseEnd k expiryFirst s).clock = s.clock ∧ (onPulseEnd k expiryFirst s).expr = s.expr ∧ (onPulseEnd k expiryFirst s).heat = s.heat ∧ (onPulseEnd k expiryFirst s).pedals = s.pedals ∧ (onPulseEnd k expiryFirst s).cue = s.cue ∧ (onPulseEnd k expiryFirst s).shadow = s.shadow := by
  unfold onPulseEnd
  (repeat' split) <;> simp

@[simp] theorem onMinHoldExpiry_keeps (k : Key) (s : State) :
    (onMinHoldExpiry k s).now = s.now ∧ (onMinHoldExpiry k s).pending = s.pending ∧ (onMinHoldExpiry k s).rst = s.rst ∧ (onMinHoldExpiry k s).inh = s.inh ∧ (onMinHoldExpiry k s).ntc = s.ntc ∧ (onMinHoldExpiry k s).pwait = s.pwait ∧ (onMinHoldExpiry k s).spb = s.spb ∧ (onMinHoldExpiry k s).pd = s.pd ∧ (onMinHoldExpiry k s).kdNext = s.kdNext ∧ (onMinHoldExpiry k s).mem = s.mem ∧ (onMinHoldExpiry k s).arb = s.arb ∧ (onMinHoldExpiry k s).ring = s.ring ∧ (onMinHoldExpiry k s).track = s.track ∧ (onMinHoldExpiry k s).clock = s.clock ∧ (onMinHoldExpiry k s).expr = s.expr ∧ (onMinHoldExpiry k s).sched = s.sched ∧ (onMinHoldExpiry k s).heat = s.heat ∧ (onMinHoldExpiry k s).pedals = s.pedals ∧ (onMinHoldExpiry k s).cue = s.cue ∧ (onMinHoldExpiry k s).shadow = s.shadow ∧ (onMinHoldExpiry k s).report = s.report := by
  unfold onMinHoldExpiry
  (repeat' split) <;> simp

@[simp] theorem onRecoveryExpiry_keeps (k : Key) (s : State) :
    (onRecoveryExpiry k s).now = s.now ∧ (onRecoveryExpiry k s).pending = s.pending ∧ (onRecoveryExpiry k s).rst = s.rst ∧ (onRecoveryExpiry k s).inh = s.inh ∧ (onRecoveryExpiry k s).ntc = s.ntc ∧ (onRecoveryExpiry k s).pwait = s.pwait ∧ (onRecoveryExpiry k s).spb = s.spb ∧ (onRecoveryExpiry k s).pd = s.pd ∧ (onRecoveryExpiry k s).kdNext = s.kdNext ∧ (onRecoveryExpiry k s).mem = s.mem ∧ (onRecoveryExpiry k s).arb = s.arb ∧ (onRecoveryExpiry k s).ring = s.ring ∧ (onRecoveryExpiry k s).track = s.track ∧ (onRecoveryExpiry k s).clock = s.clock ∧ (onRecoveryExpiry k s).expr = s.expr ∧ (onRecoveryExpiry k s).sched = s.sched ∧ (onRecoveryExpiry k s).heat = s.heat ∧ (onRecoveryExpiry k s).pedals = s.pedals ∧ (onRecoveryExpiry k s).cue = s.cue ∧ (onRecoveryExpiry k s).shadow = s.shadow := by
  unfold onRecoveryExpiry
  (repeat' split) <;> simp

@[simp] theorem onKeyResetTimerExpiry_keeps (k : Key) (s : State) :
    (onKeyResetTimerExpiry k s).now = s.now ∧ (onKeyResetTimerExpiry k s).pending = s.pending ∧ (onKeyResetTimerExpiry k s).rst = s.rst ∧ (onKeyResetTimerExpiry k s).inh = s.inh ∧ (onKeyResetTimerExpiry k s).ntc = s.ntc ∧ (onKeyResetTimerExpiry k s).pwait = s.pwait ∧ (onKeyResetTimerExpiry k s).spb = s.spb ∧ (onKeyResetTimerExpiry k s).pd = s.pd ∧ (onKeyResetTimerExpiry k s).kdNext = s.kdNext ∧ (onKeyResetTimerExpiry k s).mem = s.mem ∧ (onKeyResetTimerExpiry k s).arb = s.arb ∧ (onKeyResetTimerExpiry k s).ring = s.ring ∧ (onKeyResetTimerExpiry k s).track = s.track ∧ (onKeyResetTimerExpiry k s).clock = s.clock ∧ (onKeyResetTimerExpiry k s).expr = s.expr ∧ (onKeyResetTimerExpiry k s).sched = s.sched ∧ (onKeyResetTimerExpiry k s).heat = s.heat ∧ (onKeyResetTimerExpiry k s).pedals = s.pedals ∧ (onKeyResetTimerExpiry k s).cue = s.cue ∧ (onKeyResetTimerExpiry k s).shadow = s.shadow := by
  unfold onKeyResetTimerExpiry
  (repeat' split) <;> simp

@[simp] theorem onHeatStep_keeps (s : State) :
    (onHeatStep s).now = s.now ∧ (onHeatStep s).pending = s.pending ∧ (onHeatStep s).rst = s.rst ∧ (onHeatStep s).inh = s.inh ∧ (onHeatStep s).ntc = s.ntc ∧ (onHeatStep s).pwait = s.pwait ∧ (onHeatStep s).spb = s.spb ∧ (onHeatStep s).pd = s.pd ∧ (onHeatStep s).kdNext = s.kdNext ∧ (onHeatStep s).mem = s.mem ∧ (onHeatStep s).arb = s.arb ∧ (onHeatStep s).ring = s.ring ∧ (onHeatStep s).track = s.track ∧ (onHeatStep s).clock = s.clock ∧ (onHeatStep s).expr = s.expr ∧ (onHeatStep s).pedals = s.pedals ∧ (onHeatStep s).cue = s.cue ∧ (onHeatStep s).shadow = s.shadow := by
  unfold onHeatStep
  split
  · refine ⟨?_, ?_, ?_, ?_, ?_, ?_, ?_, ?_, ?_, ?_, ?_, ?_, ?_, ?_, ?_, ?_, ?_, ?_⟩
    · exact foldl_keeps (fun x : State => x.now) _ (by intro s k; simp) _ _
    · exact foldl_keeps (fun x : State => x.pending) _ (by intro s k; simp) _ _
    · exact foldl_keeps (fun x : State => x.rst) _ (by intro s k; simp) _ _
    · exact foldl_keeps (fun x : State => x.inh) _ (by intro s k; simp) _ _
    · exact foldl_keeps (fun x : State => x.ntc) _ (by intro s k; simp) _ _
    · exact foldl_keeps (fun x : State => x.pwait) _ (by intro s k; simp) _ _
    · exact foldl_keeps (fun x : State => x.spb) _ (by intro s k; simp) _ _
    · exact foldl_keeps (fun x : State => x.pd) _ (by intro s k; simp) _ _
    · exact foldl_keeps (fun x : State => x.kdNext) _ (by intro s k; simp) _ _
    · exact foldl_keeps (fun x : State => x.mem) _ (by intro s k; simp) _ _
    · exact foldl_keeps (fun x : State => x.arb) _ (by intro s k; simp) _ _
    · exact foldl_keeps (fun x : State => x.ring) _ (by intro s k; simp) _ _
    · exact foldl_keeps (fun x : State => x.track) _ (by intro s k; simp) _ _
    · exact foldl_keeps (fun x : State => x.clock) _ (by intro s k; simp) _ _
    · exact foldl_keeps (fun x : State => x.expr) _ (by intro s k; simp) _ _
    · exact foldl_keeps (fun x : State => x.pedals) _ (by intro s k; simp) _ _
    · exact foldl_keeps (fun x : State => x.cue) _ (by intro s k; simp) _ _
    · exact foldl_keeps (fun x : State => x.shadow) _ (by intro s k; simp) _ _
  · simp

@[simp] theorem onKdPeriodStart_keeps (s : State) :
    (onKdPeriodStart s).now = s.now ∧ (onKdPeriodStart s).pending = s.pending ∧ (onKdPeriodStart s).rst = s.rst ∧ (onKdPeriodStart s).inh = s.inh ∧ (onKdPeriodStart s).ntc = s.ntc ∧ (onKdPeriodStart s).pwait = s.pwait ∧ (onKdPeriodStart s).spb = s.spb ∧ (onKdPeriodStart s).pd = s.pd ∧ (onKdPeriodStart s).mem = s.mem ∧ (onKdPeriodStart s).arb = s.arb ∧ (onKdPeriodStart s).ring = s.ring ∧ (onKdPeriodStart s).track = s.track ∧ (onKdPeriodStart s).clock = s.clock ∧ (onKdPeriodStart s).expr = s.expr ∧ (onKdPeriodStart s).sched = s.sched ∧ (onKdPeriodStart s).fire = s.fire ∧ (onKdPeriodStart s).heat = s.heat ∧ (onKdPeriodStart s).pedals = s.pedals ∧ (onKdPeriodStart s).cue = s.cue ∧ (onKdPeriodStart s).shadow = s.shadow ∧ (onKdPeriodStart s).report = s.report ∧ (onKdPeriodStart s).updates = s.updates := by
  unfold onKdPeriodStart
  (repeat' split) <;> simp

@[simp] theorem onMoveFrameSent_keeps (s : State) :
    (onMoveFrameSent s).now = s.now ∧ (onMoveFrameSent s).pending = s.pending ∧ (onMoveFrameSent s).rst = s.rst ∧ (onMoveFrameSent s).inh = s.inh ∧ (onMoveFrameSent s).ntc = s.ntc ∧ (onMoveFrameSent s).pwait = s.pwait ∧ (onMoveFrameSent s).spb = s.spb ∧ (onMoveFrameSent s).pd = s.pd ∧ (onMoveFrameSent s).kdNext = s.kdNext ∧ (onMoveFrameSent s).mem = s.mem ∧ (onMoveFrameSent s).arb = s.arb ∧ (onMoveFrameSent s).ring = s.ring ∧ (onMoveFrameSent s).track = s.track ∧ (onMoveFrameSent s).clock = s.clock ∧ (onMoveFrameSent s).expr = s.expr ∧ (onMoveFrameSent s).sched = s.sched ∧ (onMoveFrameSent s).fire = s.fire ∧ (onMoveFrameSent s).keys = s.keys ∧ (onMoveFrameSent s).heat = s.heat ∧ (onMoveFrameSent s).cue = s.cue ∧ (onMoveFrameSent s).shadow = s.shadow ∧ (onMoveFrameSent s).report = s.report ∧ (onMoveFrameSent s).updates = s.updates := by
  unfold onMoveFrameSent
  (repeat' split) <;> simp

@[simp] theorem onLinkByteEndAbort_keeps (s : State) :
    (onLinkByteEndAbort s).now = s.now ∧ (onLinkByteEndAbort s).pending = s.pending ∧ (onLinkByteEndAbort s).rst = s.rst ∧ (onLinkByteEndAbort s).inh = s.inh ∧ (onLinkByteEndAbort s).ntc = s.ntc ∧ (onLinkByteEndAbort s).pwait = s.pwait ∧ (onLinkByteEndAbort s).spb = s.spb ∧ (onLinkByteEndAbort s).pd = s.pd ∧ (onLinkByteEndAbort s).kdNext = s.kdNext ∧ (onLinkByteEndAbort s).mem = s.mem ∧ (onLinkByteEndAbort s).arb = s.arb ∧ (onLinkByteEndAbort s).ring = s.ring ∧ (onLinkByteEndAbort s).track = s.track ∧ (onLinkByteEndAbort s).clock = s.clock ∧ (onLinkByteEndAbort s).expr = s.expr ∧ (onLinkByteEndAbort s).sched = s.sched ∧ (onLinkByteEndAbort s).fire = s.fire ∧ (onLinkByteEndAbort s).keys = s.keys ∧ (onLinkByteEndAbort s).heat = s.heat ∧ (onLinkByteEndAbort s).cue = s.cue ∧ (onLinkByteEndAbort s).shadow = s.shadow ∧ (onLinkByteEndAbort s).report = s.report := by
  unfold onLinkByteEndAbort
  (repeat' split) <;> simp

@[simp] theorem onAck_keeps (p : Pedal) (depth : BitVec 4) (s : State) :
    (onAck p depth s).now = s.now ∧ (onAck p depth s).pending = s.pending ∧ (onAck p depth s).rst = s.rst ∧ (onAck p depth s).inh = s.inh ∧ (onAck p depth s).ntc = s.ntc ∧ (onAck p depth s).pwait = s.pwait ∧ (onAck p depth s).spb = s.spb ∧ (onAck p depth s).pd = s.pd ∧ (onAck p depth s).kdNext = s.kdNext ∧ (onAck p depth s).mem = s.mem ∧ (onAck p depth s).arb = s.arb ∧ (onAck p depth s).ring = s.ring ∧ (onAck p depth s).track = s.track ∧ (onAck p depth s).clock = s.clock ∧ (onAck p depth s).expr = s.expr ∧ (onAck p depth s).sched = s.sched ∧ (onAck p depth s).fire = s.fire ∧ (onAck p depth s).keys = s.keys ∧ (onAck p depth s).heat = s.heat ∧ (onAck p depth s).cue = s.cue ∧ (onAck p depth s).shadow = s.shadow := by
  unfold onAck
  (repeat' split) <;> simp

@[simp] theorem onNak_keeps (p : Pedal) (depth : BitVec 4) (s : State) :
    (onNak p depth s).now = s.now ∧ (onNak p depth s).pending = s.pending ∧ (onNak p depth s).rst = s.rst ∧ (onNak p depth s).inh = s.inh ∧ (onNak p depth s).ntc = s.ntc ∧ (onNak p depth s).pwait = s.pwait ∧ (onNak p depth s).spb = s.spb ∧ (onNak p depth s).pd = s.pd ∧ (onNak p depth s).kdNext = s.kdNext ∧ (onNak p depth s).mem = s.mem ∧ (onNak p depth s).arb = s.arb ∧ (onNak p depth s).ring = s.ring ∧ (onNak p depth s).track = s.track ∧ (onNak p depth s).clock = s.clock ∧ (onNak p depth s).expr = s.expr ∧ (onNak p depth s).sched = s.sched ∧ (onNak p depth s).fire = s.fire ∧ (onNak p depth s).keys = s.keys ∧ (onNak p depth s).heat = s.heat ∧ (onNak p depth s).cue = s.cue ∧ (onNak p depth s).shadow = s.shadow := by
  unfold onNak
  (repeat' split) <;> simp

@[simp] theorem onReplyTimeoutExpiry_keeps (s : State) :
    (onReplyTimeoutExpiry s).now = s.now ∧ (onReplyTimeoutExpiry s).pending = s.pending ∧ (onReplyTimeoutExpiry s).rst = s.rst ∧ (onReplyTimeoutExpiry s).inh = s.inh ∧ (onReplyTimeoutExpiry s).ntc = s.ntc ∧ (onReplyTimeoutExpiry s).pwait = s.pwait ∧ (onReplyTimeoutExpiry s).spb = s.spb ∧ (onReplyTimeoutExpiry s).pd = s.pd ∧ (onReplyTimeoutExpiry s).kdNext = s.kdNext ∧ (onReplyTimeoutExpiry s).mem = s.mem ∧ (onReplyTimeoutExpiry s).arb = s.arb ∧ (onReplyTimeoutExpiry s).ring = s.ring ∧ (onReplyTimeoutExpiry s).track = s.track ∧ (onReplyTimeoutExpiry s).clock = s.clock ∧ (onReplyTimeoutExpiry s).expr = s.expr ∧ (onReplyTimeoutExpiry s).sched = s.sched ∧ (onReplyTimeoutExpiry s).fire = s.fire ∧ (onReplyTimeoutExpiry s).keys = s.keys ∧ (onReplyTimeoutExpiry s).heat = s.heat ∧ (onReplyTimeoutExpiry s).cue = s.cue ∧ (onReplyTimeoutExpiry s).shadow = s.shadow := by
  unfold onReplyTimeoutExpiry
  (repeat' split) <;> simp

@[simp] theorem onArrived_keeps (p : Pedal) (depth : BitVec 4) (s : State) :
    (onArrived p depth s).now = s.now ∧ (onArrived p depth s).pending = s.pending ∧ (onArrived p depth s).rst = s.rst ∧ (onArrived p depth s).inh = s.inh ∧ (onArrived p depth s).ntc = s.ntc ∧ (onArrived p depth s).pwait = s.pwait ∧ (onArrived p depth s).spb = s.spb ∧ (onArrived p depth s).pd = s.pd ∧ (onArrived p depth s).kdNext = s.kdNext ∧ (onArrived p depth s).mem = s.mem ∧ (onArrived p depth s).arb = s.arb ∧ (onArrived p depth s).ring = s.ring ∧ (onArrived p depth s).track = s.track ∧ (onArrived p depth s).clock = s.clock ∧ (onArrived p depth s).expr = s.expr ∧ (onArrived p depth s).sched = s.sched ∧ (onArrived p depth s).fire = s.fire ∧ (onArrived p depth s).keys = s.keys ∧ (onArrived p depth s).heat = s.heat ∧ (onArrived p depth s).cue = s.cue ∧ (onArrived p depth s).shadow = s.shadow := by
  unfold onArrived
  (repeat' split) <;> simp

@[simp] theorem onInvalidFrame_keeps (b1 b2 b3 : Byte) (s : State) :
    (onInvalidFrame b1 b2 b3 s).now = s.now ∧ (onInvalidFrame b1 b2 b3 s).pending = s.pending ∧ (onInvalidFrame b1 b2 b3 s).rst = s.rst ∧ (onInvalidFrame b1 b2 b3 s).inh = s.inh ∧ (onInvalidFrame b1 b2 b3 s).ntc = s.ntc ∧ (onInvalidFrame b1 b2 b3 s).pwait = s.pwait ∧ (onInvalidFrame b1 b2 b3 s).spb = s.spb ∧ (onInvalidFrame b1 b2 b3 s).pd = s.pd ∧ (onInvalidFrame b1 b2 b3 s).kdNext = s.kdNext ∧ (onInvalidFrame b1 b2 b3 s).mem = s.mem ∧ (onInvalidFrame b1 b2 b3 s).arb = s.arb ∧ (onInvalidFrame b1 b2 b3 s).ring = s.ring ∧ (onInvalidFrame b1 b2 b3 s).track = s.track ∧ (onInvalidFrame b1 b2 b3 s).clock = s.clock ∧ (onInvalidFrame b1 b2 b3 s).expr = s.expr ∧ (onInvalidFrame b1 b2 b3 s).sched = s.sched ∧ (onInvalidFrame b1 b2 b3 s).fire = s.fire ∧ (onInvalidFrame b1 b2 b3 s).keys = s.keys ∧ (onInvalidFrame b1 b2 b3 s).heat = s.heat ∧ (onInvalidFrame b1 b2 b3 s).cue = s.cue ∧ (onInvalidFrame b1 b2 b3 s).shadow = s.shadow := by
  unfold onInvalidFrame
  (repeat' split) <;> simp

@[simp] theorem onPlrxFramingError_keeps (s : State) :
    (onPlrxFramingError s).now = s.now ∧ (onPlrxFramingError s).pending = s.pending ∧ (onPlrxFramingError s).rst = s.rst ∧ (onPlrxFramingError s).inh = s.inh ∧ (onPlrxFramingError s).ntc = s.ntc ∧ (onPlrxFramingError s).pwait = s.pwait ∧ (onPlrxFramingError s).spb = s.spb ∧ (onPlrxFramingError s).pd = s.pd ∧ (onPlrxFramingError s).kdNext = s.kdNext ∧ (onPlrxFramingError s).mem = s.mem ∧ (onPlrxFramingError s).arb = s.arb ∧ (onPlrxFramingError s).ring = s.ring ∧ (onPlrxFramingError s).track = s.track ∧ (onPlrxFramingError s).clock = s.clock ∧ (onPlrxFramingError s).expr = s.expr ∧ (onPlrxFramingError s).sched = s.sched ∧ (onPlrxFramingError s).fire = s.fire ∧ (onPlrxFramingError s).keys = s.keys ∧ (onPlrxFramingError s).heat = s.heat ∧ (onPlrxFramingError s).cue = s.cue ∧ (onPlrxFramingError s).shadow = s.shadow ∧ (onPlrxFramingError s).report = s.report ∧ (onPlrxFramingError s).updates = s.updates := by
  unfold onPlrxFramingError
  (repeat' split) <;> simp

@[simp] theorem onPlrxGapTimeout_keeps (s : State) :
    (onPlrxGapTimeout s).now = s.now ∧ (onPlrxGapTimeout s).pending = s.pending ∧ (onPlrxGapTimeout s).rst = s.rst ∧ (onPlrxGapTimeout s).inh = s.inh ∧ (onPlrxGapTimeout s).ntc = s.ntc ∧ (onPlrxGapTimeout s).pwait = s.pwait ∧ (onPlrxGapTimeout s).spb = s.spb ∧ (onPlrxGapTimeout s).pd = s.pd ∧ (onPlrxGapTimeout s).kdNext = s.kdNext ∧ (onPlrxGapTimeout s).mem = s.mem ∧ (onPlrxGapTimeout s).arb = s.arb ∧ (onPlrxGapTimeout s).ring = s.ring ∧ (onPlrxGapTimeout s).track = s.track ∧ (onPlrxGapTimeout s).clock = s.clock ∧ (onPlrxGapTimeout s).expr = s.expr ∧ (onPlrxGapTimeout s).sched = s.sched ∧ (onPlrxGapTimeout s).fire = s.fire ∧ (onPlrxGapTimeout s).keys = s.keys ∧ (onPlrxGapTimeout s).heat = s.heat ∧ (onPlrxGapTimeout s).cue = s.cue ∧ (onPlrxGapTimeout s).shadow = s.shadow ∧ (onPlrxGapTimeout s).report = s.report ∧ (onPlrxGapTimeout s).updates = s.updates := by
  unfold onPlrxGapTimeout
  (repeat' split) <;> simp

@[simp] theorem onPlrxByteReceived_keeps (b : Byte) (s : State) :
    (onPlrxByteReceived b s).now = s.now ∧ (onPlrxByteReceived b s).pending = s.pending ∧ (onPlrxByteReceived b s).rst = s.rst ∧ (onPlrxByteReceived b s).inh = s.inh ∧ (onPlrxByteReceived b s).ntc = s.ntc ∧ (onPlrxByteReceived b s).pwait = s.pwait ∧ (onPlrxByteReceived b s).spb = s.spb ∧ (onPlrxByteReceived b s).pd = s.pd ∧ (onPlrxByteReceived b s).kdNext = s.kdNext ∧ (onPlrxByteReceived b s).mem = s.mem ∧ (onPlrxByteReceived b s).arb = s.arb ∧ (onPlrxByteReceived b s).ring = s.ring ∧ (onPlrxByteReceived b s).track = s.track ∧ (onPlrxByteReceived b s).clock = s.clock ∧ (onPlrxByteReceived b s).expr = s.expr ∧ (onPlrxByteReceived b s).sched = s.sched ∧ (onPlrxByteReceived b s).fire = s.fire ∧ (onPlrxByteReceived b s).keys = s.keys ∧ (onPlrxByteReceived b s).heat = s.heat ∧ (onPlrxByteReceived b s).cue = s.cue ∧ (onPlrxByteReceived b s).shadow = s.shadow := by
  unfold onPlrxByteReceived
  (repeat' split) <;> simp

@[simp] theorem onTravelExpiry_keeps (p : Pedal) (s : State) :
    (onTravelExpiry p s).now = s.now ∧ (onTravelExpiry p s).pending = s.pending ∧ (onTravelExpiry p s).rst = s.rst ∧ (onTravelExpiry p s).inh = s.inh ∧ (onTravelExpiry p s).ntc = s.ntc ∧ (onTravelExpiry p s).pwait = s.pwait ∧ (onTravelExpiry p s).spb = s.spb ∧ (onTravelExpiry p s).pd = s.pd ∧ (onTravelExpiry p s).kdNext = s.kdNext ∧ (onTravelExpiry p s).mem = s.mem ∧ (onTravelExpiry p s).arb = s.arb ∧ (onTravelExpiry p s).ring = s.ring ∧ (onTravelExpiry p s).track = s.track ∧ (onTravelExpiry p s).clock = s.clock ∧ (onTravelExpiry p s).expr = s.expr ∧ (onTravelExpiry p s).sched = s.sched ∧ (onTravelExpiry p s).fire = s.fire ∧ (onTravelExpiry p s).keys = s.keys ∧ (onTravelExpiry p s).heat = s.heat ∧ (onTravelExpiry p s).cue = s.cue ∧ (onTravelExpiry p s).shadow = s.shadow := by
  unfold onTravelExpiry
  (repeat' split) <;> simp

@[simp] theorem recordWordDone_keeps (s : State) :
    (recordWordDone s).now = s.now ∧ (recordWordDone s).pending = s.pending ∧ (recordWordDone s).rst = s.rst ∧ (recordWordDone s).inh = s.inh ∧ (recordWordDone s).ntc = s.ntc ∧ (recordWordDone s).pwait = s.pwait ∧ (recordWordDone s).spb = s.spb ∧ (recordWordDone s).pd = s.pd ∧ (recordWordDone s).kdNext = s.kdNext ∧ (recordWordDone s).mem = s.mem ∧ (recordWordDone s).arb = s.arb ∧ (recordWordDone s).ring = s.ring ∧ (recordWordDone s).track = s.track ∧ (recordWordDone s).clock = s.clock ∧ (recordWordDone s).expr = s.expr ∧ (recordWordDone s).sched = s.sched ∧ (recordWordDone s).fire = s.fire ∧ (recordWordDone s).keys = s.keys ∧ (recordWordDone s).heat = s.heat ∧ (recordWordDone s).pedals = s.pedals ∧ (recordWordDone s).cue = s.cue ∧ (recordWordDone s).shadow = s.shadow := by
  unfold recordWordDone
  (repeat' split) <;> simp

@[simp] theorem onReportWordWrite_keeps (s : State) :
    (onReportWordWrite s).now = s.now ∧ (onReportWordWrite s).pending = s.pending ∧ (onReportWordWrite s).rst = s.rst ∧ (onReportWordWrite s).inh = s.inh ∧ (onReportWordWrite s).ntc = s.ntc ∧ (onReportWordWrite s).pwait = s.pwait ∧ (onReportWordWrite s).spb = s.spb ∧ (onReportWordWrite s).kdNext = s.kdNext ∧ (onReportWordWrite s).heat = s.heat := by
  unfold onReportWordWrite
  (repeat' split) <;> simp

@[simp] theorem onStatusWordWrite_keeps (s : State) :
    (onStatusWordWrite s).now = s.now ∧ (onStatusWordWrite s).pending = s.pending ∧ (onStatusWordWrite s).rst = s.rst ∧ (onStatusWordWrite s).inh = s.inh ∧ (onStatusWordWrite s).ntc = s.ntc ∧ (onStatusWordWrite s).pwait = s.pwait ∧ (onStatusWordWrite s).spb = s.spb ∧ (onStatusWordWrite s).kdNext = s.kdNext ∧ (onStatusWordWrite s).heat = s.heat := by
  unfold onStatusWordWrite
  (repeat' split) <;> simp

@[simp] theorem onInhNChange_keeps (asserted : Bool) (s : State) :
    (onInhNChange asserted s).now = s.now ∧ (onInhNChange asserted s).pending = s.pending ∧ (onInhNChange asserted s).rst = s.rst ∧ (onInhNChange asserted s).ntc = s.ntc ∧ (onInhNChange asserted s).pwait = s.pwait ∧ (onInhNChange asserted s).spb = s.spb ∧ (onInhNChange asserted s).pd = s.pd ∧ (onInhNChange asserted s).kdNext = s.kdNext ∧ (onInhNChange asserted s).mem = s.mem ∧ (onInhNChange asserted s).arb = s.arb ∧ (onInhNChange asserted s).ring = s.ring ∧ (onInhNChange asserted s).track = s.track ∧ (onInhNChange asserted s).clock = s.clock ∧ (onInhNChange asserted s).expr = s.expr ∧ (onInhNChange asserted s).sched = s.sched ∧ (onInhNChange asserted s).fire = s.fire ∧ (onInhNChange asserted s).keys = s.keys ∧ (onInhNChange asserted s).heat = s.heat ∧ (onInhNChange asserted s).pedals = s.pedals ∧ (onInhNChange asserted s).cue = s.cue ∧ (onInhNChange asserted s).shadow = s.shadow := by
  unfold onInhNChange
  (repeat' split) <;> simp

@[simp] theorem passHeldCycles_keeps (s : State) :
    (passHeldCycles s).now = s.now ∧ (passHeldCycles s).pending = s.pending ∧ (passHeldCycles s).rst = s.rst ∧ (passHeldCycles s).inh = s.inh ∧ (passHeldCycles s).ntc = s.ntc ∧ (passHeldCycles s).pwait = s.pwait ∧ (passHeldCycles s).spb = s.spb ∧ (passHeldCycles s).kdNext = s.kdNext ∧ (passHeldCycles s).arb = s.arb ∧ (passHeldCycles s).ring = s.ring ∧ (passHeldCycles s).track = s.track ∧ (passHeldCycles s).clock = s.clock ∧ (passHeldCycles s).expr = s.expr ∧ (passHeldCycles s).sched = s.sched ∧ (passHeldCycles s).fire = s.fire ∧ (passHeldCycles s).keys = s.keys ∧ (passHeldCycles s).heat = s.heat ∧ (passHeldCycles s).pedals = s.pedals ∧ (passHeldCycles s).cue = s.cue ∧ (passHeldCycles s).shadow = s.shadow ∧ (passHeldCycles s).report = s.report ∧ (passHeldCycles s).updates = s.updates := by
  unfold passHeldCycles
  dsimp only
  (repeat' split) <;> simp

end Sys2Proof.Machine
end

