-- ==== Sys2Proof/Laws/Frame.lean ====
section
/-! SUPPORT. From a row to its frame: equality of states field by field, what the advance, the grant and the end of a row keep of the records they touch, the outstanding records, and the port that is open. -/

namespace Sys2Proof.Machine

/-! ## Equality, field by field -/

theorem state_ext {a b : State} (now : a.now = b.now) (pending : a.pending = b.pending) (rst : a.rst = b.rst)
    (inh : a.inh = b.inh) (ntc : a.ntc = b.ntc) (pwait : a.pwait = b.pwait) (spb : a.spb = b.spb) (pd : a.pd = b.pd)
    (kdNext : a.kdNext = b.kdNext) (mem : a.mem = b.mem) (arb : a.arb = b.arb) (ring : a.ring = b.ring)
    (track : a.track = b.track) (clock : a.clock = b.clock) (expr : a.expr = b.expr) (sched : a.sched = b.sched)
    (fire : a.fire = b.fire) (keys : a.keys = b.keys) (heat : a.heat = b.heat) (pedals : a.pedals = b.pedals)
    (cue : a.cue = b.cue) (shadow : a.shadow = b.shadow) (report : a.report = b.report)
    (updates : a.updates = b.updates) : a = b := by
  cases a; cases b; simp_all

theorem arbiter_ext {a b : Arbiter} (h1 : a.owner = b.owner) (h2 : a.waiting = b.waiting) : a = b := by
  cases a; cases b; simp_all

theorem clock_ext {a b : Clock} (h1 : a.state = b.state) (h2 : a.cause = b.cause) (h3 : a.expected = b.expected)
    (h4 : a.nextDue = b.nextDue) (h5 : a.waitingDue = b.waitingDue) (h6 : a.lineInProgress = b.lineInProgress)
    (h7 : a.lineDue = b.lineDue) (h8 : a.pendingHold = b.pendingHold) (h9 : a.stepInProgress = b.stepInProgress)
    (h10 : a.starveTimer = b.starveTimer) (h11 : a.starvedSince = b.starvedSince) (h12 : a.exprCount = b.exprCount)
    (h14 : a.exprOwed = b.exprOwed)
    (h13 : a.drained = b.drained) : a = b := by
  cases a; cases b; simp_all

theorem shadow_ext {a b : Shadow} (h1 : a.loaded = b.loaded) (h2 : a.words = b.words) (h3 : a.readCount = b.readCount)
    (h4 : a.arg = b.arg) (h5 : a.count = b.count) (h6 : a.result = b.result) (h7 : a.loadFault = b.loadFault)
    (h8 : a.held = b.held) : a = b := by
  cases a; cases b; simp_all

theorem report_ext {a b : Report} (h1 : a.wr = b.wr) (h2 : a.queue = b.queue) (h3 : a.current = b.current)
    (h4 : a.classes = b.classes) (h5 : a.lost = b.lost) (h6 : a.copies = b.copies) (h7 : a.active = b.active)
    (h8 : a.readIndex = b.readIndex) (h9 : a.enables = b.enables) : a = b := by
  cases a; cases b; simp_all

theorem fire_ext {a b : Fire} (h1 : a.queue = b.queue) (h2 : a.count = b.count) : a = b := by
  cases a; cases b; simp_all

theorem track_ext {a b : Track} (h1 : a.map = b.map) (h2 : a.holeMin = b.holeMin) (h3 : a.openConfirm = b.openConfirm)
    (h4 : a.closeConfirm = b.closeConfirm) (h5 : a.edgeNominal = b.edgeNominal) (h6 : a.trackPersist = b.trackPersist)
    (h7 : a.paperLimit = b.paperLimit) (h8 : a.shift = b.shift) (h9 : a.candidate = b.candidate)
    (h10 : a.candidateCount = b.candidateCount) (h11 : a.noEdge = b.noEdge) (h12 : a.pendingHold = b.pendingHold)
    (h13 : a.rows = b.rows) (h14 : a.serials = b.serials) (h15 : a.lastTag = b.lastTag)
    (h16 : a.decode = b.decode) : a = b := by
  cases a; cases b; simp_all

theorem pedals_ext {a b : PedalUnit} (h1 : a.recs = b.recs) (h2 : a.maxRetries = b.maxRetries)
    (h3 : a.replyTimeout = b.replyTimeout) (h4 : a.travelLimit = b.travelLimit) (h5 : a.link = b.link)
    (h6 : a.rxBytes = b.rxBytes) (h7 : a.rxEnd = b.rxEnd) (h8 : a.sost = b.sost) : a = b := by
  cases a; cases b; simp_all

theorem cue_ext {a b : Cue} (h1 : a.flagA = b.flagA) (h2 : a.flagB = b.flagB) (h3 : a.bArmed = b.bArmed)
    (h4 : a.exempt = b.exempt) : a = b := by
  cases a; cases b; simp_all

theorem expression_ext {a b : Expression} (h1 : a.bass = b.bass) (h2 : a.treble = b.treble) (h3 : a.soft = b.soft)
    (h4 : a.copies = b.copies) (h5 : a.sample = b.sample) : a = b := by
  cases a; cases b; simp_all

/-! ## The grant -/

theorem grantStatus_parts (s : State) :
    (grantStatus s).arb.waiting = s.arb.waiting ∧ (grantStatus s).shadow.words = s.shadow.words ∧
      (grantStatus s).shadow.loaded = s.shadow.loaded ∧ (grantStatus s).shadow.readCount = s.shadow.readCount ∧
      (grantStatus s).shadow.arg = s.shadow.arg ∧ (grantStatus s).shadow.count = s.shadow.count ∧
      (grantStatus s).shadow.loadFault = s.shadow.loadFault ∧ (grantStatus s).shadow.held = s.shadow.held := by
  unfold grantStatus
  split <;> simp

/-- A grant touches the owner, the update list and the pending result alone. -/
@[simp] theorem grantPort_parts (s : State) :
    (grantPort s).arb.waiting = s.arb.waiting ∧ (grantPort s).shadow.words = s.shadow.words ∧
      (grantPort s).shadow.loaded = s.shadow.loaded ∧ (grantPort s).shadow.readCount = s.shadow.readCount ∧
      (grantPort s).shadow.arg = s.shadow.arg ∧ (grantPort s).shadow.count = s.shadow.count ∧
      (grantPort s).shadow.loadFault = s.shadow.loadFault ∧ (grantPort s).shadow.held = s.shadow.held := by
  unfold grantPort
  (repeat' split) <;> first | simp | exact grantStatus_parts s

/-- A port that is owned, or for which a processor cycle waits, is granted to nobody. -/
theorem grantPort_busy (s : State) (h : s.arb.owner.isSome || s.arb.waiting.isSome) : grantPort s = s := by
  unfold grantPort
  rw [if_pos h]

theorem grantPort_owned {s : State} {acc : Access} (h : s.arb.owner = some acc) : grantPort s = s :=
  grantPort_busy s (by simp [h])

/-- With no request nobody is granted. -/
theorem grantPort_noRequest {s : State} (h : s.noRequest) : grantPort s = s := by
  obtain ⟨h1, h2, h3, h4⟩ := h
  unfold grantPort grantStatus
  rw [h1, h2, h3, h4]
  split <;> rfl

/-! ## The Report Writer -/

/-- Taking up the queue touches the queue, the record in progress and reports-lost alone. -/
theorem pump_parts (n : Nat) (r : Report) :
    (r.pump n).wr = r.wr ∧ (r.pump n).classes = r.classes ∧ (r.pump n).copies = r.copies ∧
      (r.pump n).active = r.active ∧ (r.pump n).readIndex = r.readIndex ∧ (r.pump n).enables = r.enables := by
  induction n generalizing r with
  | zero => simp [Report.pump]
  | succ n ih =>
    unfold Report.pump
    (repeat' split) <;> simp [ih]

@[simp] theorem takeUp_parts (r : Report) :
    r.takeUp.wr = r.wr ∧ r.takeUp.classes = r.classes ∧ r.takeUp.copies = r.copies ∧
      r.takeUp.active = r.active ∧ r.takeUp.readIndex = r.readIndex ∧ r.takeUp.enables = r.enables :=
  pump_parts _ r

/-- With no queued record, or with a record in progress, there is nothing to take up. -/
theorem takeUp_idle (r : Report) (h : r.queue = [] ∨ r.current.isSome = true) : r.takeUp = r := by
  unfold Report.takeUp
  cases hq : r.queue with
  | nil => rfl
  | cons x rest =>
    rw [List.length_cons]
    unfold Report.pump
    cases hc : r.current with
    | some p => simp
    | none => simp [hq, hc] at h

theorem outstanding_eq (s : State) : s.outstanding = s.report.outstanding := rfl

/-- While the ring is not full the queue is taken up without a loss. -/
theorem takeUp_outstanding (r : Report) (h : r.isFull = false) : r.takeUp.outstanding = r.outstanding := by
  unfold Report.takeUp
  cases hq : r.queue with
  | nil => simp [Report.pump]
  | cons x rest =>
    rw [List.length_cons]
    unfold Report.pump
    cases hc : r.current with
    | some p => simp
    | none =>
      unfold Report.outstanding
      simp [hq, hc, h]

/-- A ring with room is not full for the writer. -/
theorem hasRoom_not_full {r : Report} (h : r.hasRoom = true) : r.isFull = false := by
  unfold Report.hasRoom Report.unread at h
  unfold Report.isFull
  cases hc : r.copies with
  | none => simp [hc] at h
  | some c =>
    simp only [hc, decide_eq_true_eq] at h ⊢
    rw [decide_eq_false_iff_not]
    intro hf
    have hs : 0 < c.size := by omega
    have hn : r.readIndex < c.size := by rw [← hf]; exact Nat.mod_lt _ hs
    have key : (r.wr + c.size - r.readIndex % c.size) % c.size = c.size - 1 := by
      rw [Nat.mod_eq_of_lt hn]
      have hd := Nat.div_add_mod (r.wr + 1) c.size
      rw [hf] at hd
      have e : r.wr + c.size - r.readIndex = c.size - 1 + c.size * ((r.wr + 1) / c.size) := by omega
      rw [e, Nat.add_mul_mod_self_left]
      exact Nat.mod_eq_of_lt (by omega)
    rw [key] at h
    omega

/-- A record handed over touches the queue, the record in progress and reports-lost alone. -/
@[simp] theorem accept_parts (x : Record) (r : Report) :
    (r.accept x).wr = r.wr ∧ (r.accept x).classes = r.classes ∧ (r.accept x).copies = r.copies ∧
      (r.accept x).active = r.active ∧ (r.accept x).readIndex = r.readIndex ∧ (r.accept x).enables = r.enables := by
  unfold Report.accept
  (repeat' split) <;> simp

/-- A record handed over with room joins the outstanding ones; without room, or dormant, they stay as they were. -/
theorem accept_outstanding (x : Record) (r : Report) :
    (r.accept x).outstanding =
      if r.active = true ∧ r.hasRoom = true then r.outstanding ++ [x] else r.outstanding := by
  unfold Report.accept
  by_cases h1 : r.active = true
  · by_cases h2 : r.hasRoom = true
    · rw [if_pos h1, if_pos h2, if_pos ⟨h1, h2⟩, takeUp_outstanding]
      · unfold Report.outstanding
        simp
      · exact hasRoom_not_full (r := r) h2
    · rw [if_pos h1, if_neg h2, if_neg (fun h => h2 h.2)]
      rfl
  · rw [if_neg h1, if_neg (fun h => h1 h.1)]

/-! ## Records raised -/

/-- A record raised touches the queue, the record in progress and reports-lost alone. -/
@[simp] theorem raise_parts (k : ReportKind) (a d : Word) (s : State) :
    (raise k a d s).report.wr = s.report.wr ∧ (raise k a d s).report.classes = s.report.classes ∧
      (raise k a d s).report.copies = s.report.copies ∧ (raise k a d s).report.active = s.report.active ∧
      (raise k a d s).report.readIndex = s.report.readIndex ∧ (raise k a d s).report.enables = s.report.enables := by
  rw [raise_report]
  exact accept_parts _ _

/-- A record raised in a state whose Report Writer and last tag are those of `s` joins what was outstanding in `s`. -/
theorem raise_raised {s y : State} {k : ReportKind} {a d : Word} (hr : y.report = s.report)
    (hl : y.track.lastTag = s.track.lastTag) : s.raised (raise k a d y) k a d := by
  intro ht
  rw [outstanding_eq, raise_report, accept_outstanding, hr, if_pos (show _ ∧ _ from ht), outstanding_eq, hl]
  rfl

/-- Raising only ever adds records at the end of the outstanding ones. -/
theorem raise_outstanding_grows (k : ReportKind) (a d : Word) (s : State) :
    ∃ rest, (raise k a d s).outstanding = s.outstanding ++ rest := by
  rw [outstanding_eq, raise_report, accept_outstanding, outstanding_eq]
  split
  · exact ⟨_, rfl⟩
  · exact ⟨[], by simp⟩

/-- A record that was raised is still the first of those that joined once others have joined after it. -/
theorem raised_then {s x y : State} {k : ReportKind} {a d : Word} (h : s.raised x k a d)
    (hg : ∃ rest, y.outstanding = x.outstanding ++ rest) : s.raisedFirst y k a d := by
  intro ht
  obtain ⟨rest, hg⟩ := hg
  exact ⟨rest, by rw [hg, h ht, List.append_assoc]; rfl⟩

/-- No record raised means the same outstanding records. -/
theorem raisedNone_outstanding {s s' : State} (h : s.raisedNone s') : s'.outstanding = s.outstanding := by
  rw [outstanding_eq, h, outstanding_eq]

/-! ## The end of a row -/

theorem drivePins_noticeDue (s : State) : (drivePins s).noticeDue = s.noticeDue := rfl

/-! ## Rows -/

theorem partRow_next {t : Instant} {e : State → State} {s : State} (h : s.rst = false) :
    partRow t e s = .next (drivePins (e (grantPort (advance t s)))) := by
  unfold partRow
  rw [h]
  rfl

/-- A row whose access owns the port. -/
theorem partRow_owned {t : Instant} {e : State → State} {s : State} {acc : Access} (h : s.rst = false)
    (ho : s.arb.owner = some acc) : partRow t e s = .next (drivePins (e (advance t s))) := by
  rw [partRow_next h, grantPort_owned (acc := acc) (by simpa using ho)]

/-- A cycle that arrives at the open port completes at once. -/
theorem cycleRow_open {t : Instant} {c : ProcCycle} {s : State} (h : s.portOpen c.order) :
    cycleRow t c s = .next (drivePins (completeCycle c (advance t s))) := by
  obtain ⟨⟨h1, h2, h3, h4⟩, h5⟩ := h
  have ha : arriveCycle c (advance t s) = completeCycle c (advance t s) := by
    unfold arriveCycle
    simp [h2, h3, h4]
  unfold cycleRow
  rw [h1]
  rcases h5 with h5 | h5
  · simp [h5, ha]
  · have hn : (advance t s).noRequest := by
      exact h5
    rw [grantPort_noRequest hn, ha]
    simp


end Sys2Proof.Machine
end

