-- ==== Sys2Proof/Laws/Cycle.lean ====
section
/-! SUPPORT. Processor-port cycles: where a page write lands, when the BUS test does nothing, and how a cycle completes. -/

namespace Sys2Proof.Machine

/-! ## Addresses -/

theorem pageBase_le (s : State) : s.pageBase ≤ 15 * Config.pageStride := by
  unfold State.pageBase
  have := s.spb.isLt
  exact Nat.mul_le_mul_right _ (by omega)

/-- A page write at an even offset goes to the page base plus the offset. -/
theorem pageWrite_addr (s : State) (off : Nat) (l : Lanes) (d : Word) (o : BusOrder) (h : off < Config.pageSize)
    (he : off % 2 = 0) : (s.pageWrite off l d o).addr = s.pageBase + off := by
  have hb := pageBase_le s
  have h2 : s.pageBase % 2 = 0 := by
    unfold State.pageBase Config.pageStride
    omega
  unfold State.pageWrite ProcCycle.addr State.pageWordAddr
  simp only [BitVec.toNat_ofNat]
  unfold Config.pageStride at hb
  unfold Config.pageSize at h
  rw [Nat.mod_eq_of_lt (by omega)]
  omega

theorem commandWrite_addr (s : State) (n : Nat) (hi : Option Byte) (o : BusOrder) :
    (s.commandWrite n hi o).addr = s.pageBase := by
  unfold State.commandWrite
  cases hi
  · exact (pageWrite_addr s offCommand _ _ _ (by decide) (by decide)).trans (Nat.add_zero _)
  · exact (pageWrite_addr s offCommand _ _ _ (by decide) (by decide)).trans (Nat.add_zero _)

@[simp] theorem pageWrite_parts (s : State) (off : Nat) (l : Lanes) (d : Word) (o : BusOrder) :
    (s.pageWrite off l d o).isWrite = true ∧ (s.pageWrite off l d o).lanes = l ∧
      (s.pageWrite off l d o).data = d ∧ (s.pageWrite off l d o).order = o := ⟨rfl, rfl, rfl, rfl⟩

@[simp] theorem commandWrite_parts (s : State) (n : Nat) (hi : Option Byte) (o : BusOrder) :
    (s.commandWrite n hi o).isWrite = true ∧ (s.commandWrite n hi o).order = o := by
  unfold State.commandWrite
  cases hi <;> exact ⟨rfl, rfl⟩

/-- The code of a COMMAND write of one of the codes 1 to 9. -/
theorem commandWrite_code (s : State) (n : Nat) (hi : Option Byte) (o : BusOrder) (h : n < 256) :
    (s.commandWrite n hi o).code = n := by
  unfold State.commandWrite ProcCycle.code
  cases hi with
  | none =>
    simp only [commandCode, State.pageWrite, loByte, toWord, BitVec.toNat_setWidth, BitVec.toNat_ofNat]
    omega
  | some b =>
    simp only [commandCode, State.pageWrite, loByte, wordOf, BitVec.toNat_setWidth, BitVec.toNat_append,
      BitVec.toNat_ofNat]
    rw [Nat.or_mod_two_pow (n := 8)]
    have h1 : b.toNat <<< 8 % 2 ^ 8 = 0 := by rw [Nat.shiftLeft_eq]; omega
    rw [h1]
    simp
    omega

theorem classify_page (s : State) (off : Nat) (h : off < Config.pageSize) :
    s.classify (s.pageBase + off) = .setup off := by
  unfold State.classify
  rw [if_pos ⟨by omega, by omega⟩]
  simp

theorem classify_pageBase (s : State) : s.classify s.pageBase = .setup offCommand := by
  have h := classify_page s offCommand (by decide)
  have e : s.pageBase + offCommand = s.pageBase := Nat.add_zero _
  rw [e] at h
  exact h

/-- The class of a cycle hangs on the straps, on whether the shadow is loaded, and on where the two rings lie. -/
theorem classify_congr {s s' : State} (h1 : s'.spb = s.spb) (h2 : s'.shadow.loaded = s.shadow.loaded)
    (h3 : s'.ring = s.ring) (h4 : s'.report.copies = s.report.copies) (a : Nat) : s'.classify a = s.classify a := by
  unfold State.classify State.pageBase Report.holds
  rw [h1, h2, h3, h4]

/-! ## The BUS test -/

theorem busTest_noBusCue {s : State} (h : s.noBusCue) (w : Bool) (a : Nat) (d : Word) : busTest w a d s = s := by
  have ha : busChannel .a s.cue.bArmed w a d s = s := if_neg (fun c => h.1 c.2.1)
  have hb : busChannel .b s.cue.bArmed w a d s = s := if_neg (fun c => h.2 c.2.1)
  unfold busTest
  rw [ha, hb]

theorem showCycle_noBusCue {s : State} (h : s.noBusCue) (c : ProcCycle) : showCycle c s = s := busTest_noBusCue h _ _ _

/-- While the Cue Unit is not active no cycle matches. -/
theorem showCycle_unwatched {s : State} (h : s.watching = false) (c : ProcCycle) : showCycle c s = s := by
  unfold showCycle busTest busChannel State.takesPart
  simp [h]

theorem noBusCue_congr {s s' : State} (h : s'.shadow.words = s.shadow.words) : s'.noBusCue ↔ s.noBusCue := by
  unfold State.noBusCue State.cueNat Shadow.cueWord Shadow.word
  rw [h]

/-- With no cue of KIND BUS before and after the effect, a cycle is its effect. -/
theorem showAround_noBusCue {s : State} (c : ProcCycle) (f : State → State) (h : s.noBusCue) (h' : (f s).noBusCue) :
    showAround c f s = f s := by
  unfold showAround
  split
  · rw [showCycle_noBusCue h]
  · rw [showCycle_noBusCue h']

theorem showAround_unwatched {s : State} (c : ProcCycle) (f : State → State) (h : s.watching = false)
    (h' : (f s).watching = false) : showAround c f s = f s := by
  unfold showAround
  split
  · rw [showCycle_unwatched h]
  · rw [showCycle_unwatched h']

/-! ## Completion -/

theorem holdsCommand_outside_idle {s : State} (c : ProcCycle) (h : s.clock.state ≠ .idle) : s.holdsCommand c = false := by
  unfold State.holdsCommand
  simp [h]

/-- A write outside IDLE completes with its effect by class, seen by the Cue Unit. -/
theorem completeCycle_write {s : State} (c : ProcCycle) (hw : c.isWrite = true) (h : s.holdsCommand c = false) :
    completeCycle c s = showAround c (writeEffect c) s := by
  unfold completeCycle
  rw [if_neg (by simp [h]), if_pos hw]

/-- A write of the setup page has the effect of its word's class. -/
theorem writeEffect_setup {s : State} {c : ProcCycle} {off : Nat} (h : s.classify c.addr = .setup off) :
    writeEffect c s = setupWrite off c s := by
  unfold writeEffect
  rw [h]

theorem setupWrite_command (c : ProcCycle) (s : State) : setupWrite offCommand c s = commandTaken c s := rfl

end Sys2Proof.Machine
end

