-- ==== Sys2Proof/Laws/Command.lean ====
section
/-! SUPPORT. The command intake: a COMMAND write taken outside IDLE, what an accepted and a refused command leave, and the result. -/

namespace Sys2Proof.Machine

/-- No command touches a field word of the shadow. -/
@[simp] theorem actOn_words (c : Command) (s : State) : (actOn c s).shadow.words = s.shadow.words := by
  cases c <;> simp [actOn, doLoad, doUnload, goDormant]

/-- No command touches the command count, the argument or the held write. -/
@[simp] theorem actOn_counts (c : Command) (s : State) :
    (actOn c s).shadow.count = s.shadow.count ∧ (actOn c s).shadow.arg = s.shadow.arg ∧
      (actOn c s).shadow.held = s.shadow.held := by
  cases c <;> simp [actOn, doLoad, doUnload, goDormant]

/-- The result of a command of code 1 to 9, from the count before it. -/
theorem answered_drivePins {s x : State} {n : Nat} {r : Reply} (hn : inRange 1 n 9 = true)
    (hc : x.shadow.count = s.shadow.count + 1) : s.answered (drivePins (placeResult n r x)) n r := by
  unfold State.answered
  simp [hn, hc]

@[simp] theorem takeCommand_words (n : Nat) (s : State) : (takeCommand n s).shadow.words = s.shadow.words := by
  unfold takeCommand
  dsimp only
  (repeat' split) <;> simp

/-- A COMMAND write that arrives at the open port outside IDLE is taken as its command. -/
theorem command_row {s : State} {t : Instant} {c : ProcCycle} (h : s.commandOpen c.order) (hw : c.isWrite = true)
    (ha : c.addr = s.pageBase) :
    cycleRow t c s = .next (drivePins (takeCommand c.code (passWrite c (advance t s)))) := by
  obtain ⟨h1, h2, h3⟩ := h
  have hb : (advance t s).noBusCue := (noBusCue_congr (by simp)).mpr h2
  have hc : (advance t s).classify c.addr = .setup offCommand := by
    rw [ha]
    exact classify_pageBase (advance t s)
  rw [cycleRow_open h1, completeCycle_write c hw (holdsCommand_outside_idle c (by simpa using h3)),
    showAround_noBusCue c _ hb]
  · rw [writeEffect_setup hc, setupWrite_command]
    rfl
  · rw [writeEffect_setup hc, setupWrite_command]
    unfold commandTaken
    exact (noBusCue_congr (by simp)).mpr h2

/-- An accepted command acts and leaves its result. -/
theorem takeCommand_accepted {n : Nat} {c : Command} {s : State} (hc : commandOf n = some c)
    (h : replyOf c (bumpCount s) = .accepted) :
    takeCommand n s = placeResult n .accepted (actOn c (bumpCount s)) := by
  unfold takeCommand
  simp [hc, h]

/-- A refused command leaves its result alone. -/
theorem takeCommand_refused {n : Nat} {c : Command} {s : State} (hc : commandOf n = some c)
    (h : replyOf c (bumpCount s) ≠ .accepted) :
    takeCommand n s = placeResult n (replyOf c (bumpCount s)) (bumpCount s) := by
  unfold takeCommand
  simp [hc, h]

theorem takeCommand_unknown {n : Nat} {s : State} (hc : commandOf n = none) :
    takeCommand n s = placeResult n .refusedUnknown (bumpCount s) := by
  unfold takeCommand
  simp [hc]

end Sys2Proof.Machine
end

