-- ==== Sys2Proof/Laws/Folds.lean ====
section
/-! SUPPORT. What the operations that take every key in turn do to one key. -/

namespace Sys2Proof.Machine

@[simp] theorem leaveFiring_key (was : KeyState) (s : State) (k : Key) : (leaveFiring was s).key k = s.key k := by
  simp [State.key]

@[simp] theorem leaveFiring_queue (was : KeyState) (s : State) : (leaveFiring was s).fire.queue = s.fire.queue := rfl

/-- A key after a change of one key. -/
theorem updKey_key (k : Key) (f : KeyRec → KeyRec) (s : State) (k' : Key) :
    (updKey k f s).key k' = if k' = k then f (s.key k) else s.key k' := Bank.get_modify _ _ _ _

theorem toReleasing_key (k : Key) (s : State) (k' : Key) :
    (toReleasing k s).key k' =
      if k' = k then (s.key k).releasing (s.now + Config.unit * s.shadow.recovery) else s.key k' := by
  unfold toReleasing
  rw [leaveFiring_key, updKey_key]

@[simp] theorem toReleasing_queue (k : Key) (s : State) : (toReleasing k s).fire.queue = s.fire.queue := by
  unfold toReleasing
  simp

/-- A key that is not FIRING leaves the firing count alone on its way to RELEASING. -/
theorem toReleasing_fire (k : Key) (s : State) (h : (s.key k).state ≠ .firing) :
    (toReleasing k s).fire = s.fire := by
  unfold toReleasing leaveFiring
  simp [h]

/-- A fold over distinct keys, each step of which changes its own key alone, changes each key once. -/
theorem foldl_key (f : State → Key → State) (g : Key → KeyRec → KeyRec) (P : State → Prop)
    (hP : ∀ s k, P s → P (f s k))
    (h1 : ∀ s k k', P s → (f s k).key k' = if k' = k then g k (s.key k) else s.key k') (l : List Key) (hn : l.Nodup)
    (s : State) (hs : P s) (k : Key) : (l.foldl f s).key k = if k ∈ l then g k (s.key k) else s.key k := by
  induction l generalizing s with
  | nil => simp
  | cons a l ih =>
    rw [List.foldl_cons, ih hn.of_cons _ (hP _ _ hs), h1 _ _ _ hs]
    have ha : a ∉ l := (List.nodup_cons.mp hn).1
    by_cases hk : k = a
    · subst hk
      simp [ha]
    · simp [hk]

theorem keysToIdle_key (s : State) (k : Key) : (keysToIdle s).key k = (s.key k).toIdle s.now := by
  unfold keysToIdle
  rw [foldl_key _ (fun _ r => r.toIdle s.now) (fun x => x.now = s.now)]
  · simp
  · intro x k hx
    simpa using hx
  · intro x k k' hx
    rw [leaveFiring_key, updKey_key, hx]
  · exact allKeys_nodup
  · rfl

@[simp] theorem keysToIdle_queue (s : State) : (keysToIdle s).fire.queue = s.fire.queue := by
  unfold keysToIdle
  exact foldl_keeps (fun x : State => x.fire.queue) _ (by intro s k; simp) _ _

theorem stopKeys_key (s : State) (k : Key) :
    (stopKeys s).key k =
      if (s.key k).state = .holding then (s.key k).releasing (s.now + Config.unit * s.shadow.recovery) else s.key k := by
  unfold stopKeys
  rw [foldl_key _
    (fun _ r => if r.state = .holding then r.releasing (s.now + Config.unit * s.shadow.recovery) else r)
    (fun x => x.now = s.now ∧ x.shadow = s.shadow)]
  · simp
  · intro x k hx
    split <;> simpa using hx
  · intro x k k' hx
    split
    · rename_i h
      rw [toReleasing_key, hx.1, hx.2]
    · split
      · rename_i h
        rw [h]
      · rfl
  · exact allKeys_nodup
  · exact ⟨rfl, rfl⟩

theorem stopKeys_fire (s : State) : (stopKeys s).fire = s.fire := by
  unfold stopKeys
  apply foldl_keeps (fun x : State => x.fire)
  intro x k
  split
  · rename_i h
    exact toReleasing_fire k x (by rw [h]; decide)
  · rfl

theorem silenceKeys_key (s : State) (k : Key) :
    (silenceKeys s).key k =
      if (s.key k).state = .firing ∨ (s.key k).state = .holding then
        (s.key k).releasing (s.now + Config.unit * s.shadow.recovery)
      else s.key k := by
  unfold silenceKeys
  rw [foldl_key _
    (fun _ r =>
      if r.state = .firing ∨ r.state = .holding then r.releasing (s.now + Config.unit * s.shadow.recovery) else r)
    (fun x => x.now = s.now ∧ x.shadow = s.shadow)]
  · simp
  · intro x k hx
    split <;> simpa using hx
  · intro x k k' hx
    split
    · rename_i h
      rw [toReleasing_key, hx.1, hx.2]
    · split
      · rename_i h
        rw [h]
      · rfl
  · exact allKeys_nodup
  · exact ⟨rfl, rfl⟩

@[simp] theorem silenceKeys_queue (s : State) : (silenceKeys s).fire.queue = s.fire.queue := by
  unfold silenceKeys
  apply foldl_keeps (fun x : State => x.fire.queue)
  intro x k
  split <;> simp

theorem strikeGone_key (k : Key) (s : State) (k' : Key) :
    (strikeGone k s).key k' = if k' = k then (s.key k).strikeGone else s.key k' := updKey_key _ _ _ _

/-- A key told twice is a key told once. -/
theorem strikeGone_idem (r : KeyRec) : r.strikeGone.strikeGone = r.strikeGone := by
  cases h : r.state <;> simp [KeyRec.strikeGone, h]

@[simp] theorem strikeGone_state (r : KeyRec) : r.strikeGone.state = r.state := by
  cases h : r.state <;> simp [KeyRec.strikeGone, h]

/-- Each key with a waiting strike is told when the queue is emptied (R99, R104). -/
theorem emptyQueue_key (s : State) (k : Key) : (emptyQueue s).key k = s.keyTold k := by
  have h : ∀ (q : List Waiting) (x : State),
      (q.foldl (fun s w => strikeGone w.key s) x).key k =
        if q.any (fun w => decide (w.key = k)) then (x.key k).strikeGone else x.key k := by
    intro q
    induction q with
    | nil =>
      intro x
      simp
    | cons w q ih =>
      intro x
      rw [List.foldl_cons, ih, strikeGone_key]
      by_cases hk : k = w.key
      · subst hk
        simp [strikeGone_idem]
      · have hk' : ¬ w.key = k := fun e => hk e.symm
        simp [hk, hk']
  unfold emptyQueue State.keyTold
  rw [← h]
  simp [State.key]

@[simp] theorem emptyQueue_fire (s : State) : (emptyQueue s).fire = { s.fire with queue := [] } := by
  unfold emptyQueue
  have h : (s.fire.queue.foldl (fun s w => strikeGone w.key s) s).fire = s.fire :=
    foldl_keeps (fun x : State => x.fire) _ (by intro s k; simp) _ _
  rw [setQueue_fire, h]

end Sys2Proof.Machine
end

