-- ==== Sys2Proof/Laws/Heat.lean ====
section
/-! SUPPORT. The heat step: what one key's part of it leaves alone, and what the whole step does to each key (R125, R129). -/

namespace Sys2Proof.Machine

theorem drivePins_key (s : State) (k : Key) : (drivePins s).key k = s.key k := by simp [State.key]

@[simp] theorem raise_key (r : ReportKind) (a d : Word) (s : State) (k : Key) : (raise r a d s).key k = s.key k := by
  simp [State.key]

/-- With nobody waiting there is no grant. -/
theorem grantStrikes_empty {s : State} (h : s.fire.queue = []) : grantStrikes s = s := by
  unfold grantStrikes
  rw [h]
  rfl

theorem timerOut_some {r : KeyRec} {e now : Instant} (h : r.timer = some e) (he : e ≤ now) : timerOut r now = true := by
  unfold timerOut
  rw [h]
  simp [he]

theorem endNote_parts (k : Key) (n : Option Byte) (s : State) :
    (endNote k n s).now = s.now ∧ (endNote k n s).shadow = s.shadow ∧ (endNote k n s).fire = s.fire ∧
      ∀ k', (endNote k n s).key k' = s.key k' := by
  unfold endNote
  split <;> simp [State.key]

theorem earlyRelease_key (k : Key) (c : Word) (s : State) (k' : Key) :
    (earlyRelease k c s).key k' =
      if k' = k then (s.key k).releasing (s.now + Config.unit * s.shadow.recovery) else s.key k' := by
  have h := endNote_parts k (s.key k).note s
  unfold earlyRelease
  rw [raise_key, toReleasing_key, h.2.2.2, h.2.2.2, h.1, h.2.1]

theorem reduceHold_key (k : Key) (s : State) (k' : Key) :
    (reduceHold k s).key k' =
      if k' = k then { s.key k with reduced := true, duty := s.holdDutyOf true } else s.key k' := by
  unfold reduceHold
  rw [raise_key, updKey_key]

/-- One key's part of a heat step leaves these parts alone. -/
theorem heatKey_parts (s : State) (k : Key) :
    (heatKey s k).arb = s.arb ∧ (heatKey s k).fire = s.fire ∧ (heatKey s k).shadow = s.shadow ∧
      (heatKey s k).clock = s.clock ∧ (heatKey s k).pedals = s.pedals ∧ (heatKey s k).heat = s.heat ∧
      (heatKey s k).inh = s.inh ∧ (heatKey s k).track = s.track ∧ (heatKey s k).report.wr = s.report.wr ∧
      (heatKey s k).report.classes = s.report.classes ∧ (heatKey s k).report.copies = s.report.copies ∧
      (heatKey s k).report.active = s.report.active := by
  have hf : ∀ c x, (x.key k).state = .holding → (earlyRelease k c x).fire = x.fire := by
    intro c x h
    have he := endNote_parts k (x.key k).note x
    unfold earlyRelease
    simp only [raise_keeps]
    rw [toReleasing_fire _ _ (by rw [he.2.2.2, h]; decide), he.2.2.1]
  have h2 : ∀ f, (updKey k f s).fire = s.fire := by
    intro f
    simp
  unfold heatKey heatTest
  split
  · rename_i hh
    split
    · refine ⟨?_, (hf _ _ hh).trans (h2 _), ?_⟩ <;> simp [earlyRelease]
    · split
      · split
        · refine ⟨?_, (hf _ _ hh).trans (h2 _), ?_⟩ <;> simp [earlyRelease]
        · split <;> simp [reduceHold]
      · simp
  · simp

/-- One key's part of a heat step: the other keys stay; its heat is stepped; a key that is not HOLDING changes in its heat
alone. -/
theorem heatKey_key (s : State) (k k' : Key) :
    (k' ≠ k → (heatKey s k).key k' = s.key k') ∧
      ((heatKey s k).key k).heat = heatAfter s.heat (s.key k).heat (s.appliedDuty k) ∧
      ((s.key k).state ≠ .holding →
        (heatKey s k).key k = { s.key k with heat := heatAfter s.heat (s.key k).heat (s.appliedDuty k) }) := by
  refine ⟨?_, ?_, ?_⟩
  · intro h
    unfold heatKey heatTest
    (repeat' split) <;> simp [earlyRelease_key, reduceHold_key, updKey_key, h]
  · unfold heatKey heatTest
    (repeat' split) <;> simp [earlyRelease_key, reduceHold_key, updKey_key, KeyRec.releasing]
  · intro h
    unfold heatKey heatTest
    rw [if_neg (by rw [updKey_key, if_pos rfl]; exact h), updKey_key, if_pos rfl]

/-- The whole heat step, over distinct keys: each is stepped once, from the heat and the duty it had. -/
theorem heatKey_fold (l : List Key) (s : State) (hn : l.Nodup) :
    (l.foldl heatKey s).heat = s.heat ∧ (l.foldl heatKey s).inh = s.inh ∧
      ∀ k, (k ∉ l → (l.foldl heatKey s).key k = s.key k) ∧
        (k ∈ l →
          ((l.foldl heatKey s).key k).heat = heatAfter s.heat (s.key k).heat (s.appliedDuty k) ∧
            ((s.key k).state ≠ .holding →
              (l.foldl heatKey s).key k =
                { s.key k with heat := heatAfter s.heat (s.key k).heat (s.appliedDuty k) })) := by
  induction l generalizing s with
  | nil => simp
  | cons a l ih =>
    rw [List.foldl_cons]
    obtain ⟨hna, hnl⟩ := List.nodup_cons.mp hn
    obtain ⟨i1, i2, i3⟩ := ih (heatKey s a) hnl
    have p := heatKey_parts s a
    refine ⟨i1.trans p.2.2.2.2.2.1, i2.trans p.2.2.2.2.2.2.1, ?_⟩
    intro k
    obtain ⟨j1, j2⟩ := i3 k
    refine ⟨?_, ?_⟩
    · intro h
      rw [List.mem_cons, not_or] at h
      rw [j1 h.2, (heatKey_key s a k).1 h.1]
    · intro h
      rcases List.mem_cons.mp h with rfl | h
      · rw [j1 hna]
        exact (heatKey_key s k k).2
      · have hne : k ≠ a := fun e => hna (e ▸ h)
        have hk := (heatKey_key s a k).1 hne
        have ha : (heatKey s a).appliedDuty k = s.appliedDuty k := by
          unfold State.appliedDuty
          rw [hk, p.2.2.2.2.2.2.1]
        have := j2 h
        rw [hk, ha, p.2.2.2.2.2.1] at this
        exact this

end Sys2Proof.Machine
end

