-- ==== Sys2Proof/Laws/Level.lean ====
section
/-! SUPPORT. The frozen level of a fed or resumed line (R79): where the mark is set, where it goes, and what it keeps back;
and that PLAYING time adds up across a change of state (R46). -/

namespace Sys2Proof.Machine

/-- A change of state loses no PLAYING time: what the count leaves out is owed (R46, R82). -/
theorem countOn_add_owedOn (k : Clock) (st : Playback) : k.countOn st + k.owedOn st = k.exprCount + k.exprOwed := by
  unfold Clock.countOn Clock.owedOn
  split <;> split <;> omega

/-- A count that freezes when PLAYING ends lies short of 10 ms (R82). -/
theorem countOn_lt_of_leaves (k : Clock) (st : Playback) (hp : k.state = .playing) (hs : st ≠ .playing) :
    k.countOn st < Config.expressionPeriod := by
  simp only [Clock.countOn, hp, hs, if_true, if_false, Config.expressionPeriod]
  omega

/-- Once the drive levels of a fed line are asked, and no marked fetch is in flight, the level moves again (R82). -/
theorem levelFrozen_of_stage (d : Decode) (s : State) (hf : s.ring.fetch = none) (hd : s.track.decode = some d)
    (h : d.frozenThrough < d.stage) : s.levelFrozen = false := by
  simp [State.levelFrozen, hf, hd, h]

/-- While a line that finds the frozen level is in progress an expression step changes nothing (R79). -/
theorem onExpressionStep_of_levelFrozen (s : State) (h : s.levelFrozen = true) : onExpressionStep s = s := by
  simp [onExpressionStep, h]

/-- A fetch that begins with the mark freezes the level. -/
theorem startFetch_levelFrozen (due : Instant) (s : State) : (startFetch true due s).levelFrozen = true := by
  simp [startFetch, State.levelFrozen]

/-- A fed line finds the level frozen at starvation. -/
theorem feed_levelFrozen (s : State) : (feed s).levelFrozen = true := startFetch_levelFrozen _ _

/-- The decode of a fed line freezes the level. -/
theorem beginDecode_levelFrozen (s : State) : (beginDecode Config.questionStage s).levelFrozen = true := by
  simp [beginDecode, State.levelFrozen, Config.questionStage]

/-- The line that takes the due of a discarded fed line freezes the level too (R48). -/
theorem reofferDue_levelFrozen (s : State) (hp : s.clock.state = .playing) (hr : s.ring.headReady = true) :
    (reofferDue true s).levelFrozen = true := by
  simp [reofferDue, requestFetch, hp, hr, startFetch_levelFrozen]

/-- The decode of an accepted fed line freezes the level, unless a BEFORE hold has taken effect (R18, R152). -/
theorem acceptLine_levelFrozen (s : State) (h : (beforeTest s.ring.lineTag (setExempt false s)).cue.exempt = false) :
    (acceptLine true s).levelFrozen = true := by
  simp [acceptLine, h, beginDecode_levelFrozen]

end Sys2Proof.Machine
end

