-- ==== Sys2Proof/Laws/Memory.lean ====
section
/-! SUPPORT. The memory: every write keeps the canonical form, a read after a write, and what a write leaves alone. -/

namespace Sys2Proof.Machine

theorem busAddr_lt (a : Nat) : busAddr a < Config.memBytes := Nat.mod_lt _ (by decide)

/-- Every cell of the written memory is a cell of the old one or the written byte. -/
theorem mem_putCell {m : Memory} {a : Nat} {b : Byte} {c : Host.Cell} (h : c ∈ putCell m a b) :
    c ∈ m ∨ c = (a, b) ∧ b ≠ unlisted := by
  induction m with
  | nil =>
    simp only [putCell] at h
    split at h
    · exact absurd h (by simp)
    · rename_i hb
      exact Or.inr ⟨by simpa using h, hb⟩
  | cons x rest ih =>
    obtain ⟨a', b'⟩ := x
    simp only [putCell] at h
    (repeat' split at h) <;> simp only [List.mem_cons] at h ⊢
    · exact Or.inl h
    · rename_i hb
      rcases h with h | h
      · exact Or.inr ⟨h, hb⟩
      · exact Or.inl h
    · exact Or.inl (Or.inr h)
    · rename_i hb
      rcases h with h | h
      · exact Or.inr ⟨h, hb⟩
      · exact Or.inl (Or.inr h)
    · rcases h with h | h
      · exact Or.inl (Or.inl h)
      · rcases ih h with h | h
        · exact Or.inl (Or.inr h)
        · exact Or.inr h

/-- A byte written keeps the canonical form. -/
theorem putCell_wf {m : Memory} (h : Memory.wf m) (a : Nat) (b : Byte) (ha : a < Config.memBytes) :
    Memory.wf (putCell m a b) := by
  refine ⟨?_, ?_⟩
  · replace h := h.1
    induction m with
    | nil =>
      simp only [putCell]
      split <;> simp
    | cons x rest ih =>
      obtain ⟨a', b'⟩ := x
      rw [List.pairwise_cons] at h
      obtain ⟨h1, h2⟩ := h
      simp only [putCell]
      split
      · rename_i hlt
        split
        · exact List.pairwise_cons.mpr ⟨h1, h2⟩
        · refine List.pairwise_cons.mpr ⟨?_, List.pairwise_cons.mpr ⟨h1, h2⟩⟩
          intro c hc
          rcases List.mem_cons.mp hc with rfl | hc
          · exact hlt
          · exact Nat.lt_trans hlt (h1 c hc)
      · split
        · rename_i heq
          split
          · exact h2
          · refine List.pairwise_cons.mpr ⟨?_, h2⟩
            intro c hc
            rw [heq]
            exact h1 c hc
        · rename_i hlt hne
          refine List.pairwise_cons.mpr ⟨?_, ih h2⟩
          intro c hc
          rcases mem_putCell hc with hc | ⟨rfl, _⟩
          · exact h1 c hc
          · show a' < a
            omega
  · intro c hc
    rcases mem_putCell hc with hc | ⟨rfl, hb⟩
    · exact h.2 c hc
    · exact ⟨ha, hb⟩

/-- A cell is not found before the first address of a rising list. -/
theorem cellAt_below {m : Memory} {a : Nat} (h : ∀ c ∈ m, a < c.1) : cellAt m a = unlisted := by
  induction m with
  | nil => rfl
  | cons x rest ih =>
    obtain ⟨a', b'⟩ := x
    have h1 : a < a' := h (a', b') (by simp)
    simp only [cellAt]
    rw [if_neg (by omega)]
    exact ih (fun c hc => h c (by simp [hc]))

/-- What a listed or unlisted address reads as after a byte is put. -/
theorem cellAt_putCell {m : Memory} (h : m.Pairwise (fun x y => x.1 < y.1)) (a : Nat) (b : Byte) (x : Nat) :
    cellAt (putCell m a b) x = if x = a then b else cellAt m x := by
  induction m with
  | nil =>
    simp only [putCell]
    split
    · rename_i hb
      simp only [cellAt, hb]
      split <;> rfl
    · rfl
  | cons y rest ih =>
    obtain ⟨a', b'⟩ := y
    rw [List.pairwise_cons] at h
    obtain ⟨h1, h2⟩ := h
    have hbelow : ∀ z, z ≤ a' → cellAt rest z = unlisted := by
      intro z hz
      apply cellAt_below
      intro c hc
      have := h1 c hc
      omega
    simp only [putCell]
    split
    · rename_i hlt
      split
      · rename_i hb
        by_cases hx : x = a
        · subst hx
          rw [if_pos rfl]
          simp only [cellAt]
          rw [if_neg (by omega), hbelow _ (by omega), hb]
        · rw [if_neg hx]
      · simp only [cellAt]
    · split
      · rename_i heq
        subst heq
        split
        · rename_i hb
          simp only [cellAt]
          by_cases hx : x = a
          · rw [if_pos hx, hx, hbelow _ (by omega), hb]
          · rw [if_neg hx, if_neg hx]
        · simp only [cellAt]
          by_cases hx : x = a
          · rw [if_pos hx, if_pos hx]
          · rw [if_neg hx, if_neg hx, if_neg hx]
      · rename_i hlt hne
        simp only [cellAt]
        rw [ih h2]
        by_cases hx : x = a
        · rw [if_pos hx, if_pos hx, if_neg (by omega)]
        · rw [if_neg hx, if_neg hx]

/-- A byte put leaves every other address alone, in any list of cells. -/
theorem cellAt_putCell_other (m : Memory) (a : Nat) (b : Byte) (x : Nat) (hx : x ≠ a) :
    cellAt (putCell m a b) x = cellAt m x := by
  induction m with
  | nil =>
    simp only [putCell]
    split
    · rfl
    · simp only [cellAt]
      rw [if_neg hx]
  | cons y rest ih =>
    obtain ⟨a', b'⟩ := y
    simp only [putCell]
    split
    · split
      · rfl
      · simp only [cellAt]
        rw [if_neg hx]
    · split
      · rename_i heq
        subst heq
        split
        · simp only [cellAt]
          rw [if_neg hx]
        · simp only [cellAt]
          rw [if_neg hx, if_neg hx]
      · simp only [cellAt]
        rw [ih]

theorem writeByte_wf {m : Memory} (h : Memory.wf m) (a : Nat) (b : Byte) : Memory.wf (writeByte m a b) :=
  putCell_wf h _ _ (busAddr_lt a)

theorem writeWord_wf {m : Memory} (h : Memory.wf m) (a : Nat) (w : Word) : Memory.wf (writeWord m a w) :=
  writeByte_wf (writeByte_wf h _ _) _ _

theorem writeLanes_wf {m : Memory} (h : Memory.wf m) (a : Nat) (l : Lanes) (w : Word) :
    Memory.wf (writeLanes m a l w) := by
  cases l
  · exact writeByte_wf h _ _
  · exact writeByte_wf h _ _
  · exact writeWord_wf h _ _

/-- A byte read after a byte written. -/
theorem readByte_writeByte {m : Memory} (h : Memory.wf m) (a x : Nat) (b : Byte) :
    readByte (writeByte m a b) x = if busAddr x = busAddr a then b else readByte m x := cellAt_putCell h.1 _ _ _

/-- A byte write leaves every other address alone. -/
theorem readByte_writeByte_other (m : Memory) (a x : Nat) (b : Byte) (h : busAddr x ≠ busAddr a) :
    readByte (writeByte m a b) x = readByte m x := cellAt_putCell_other _ _ _ _ h

/-- A word write leaves every address alone but its two bytes. -/
theorem readByte_writeWord_other (m : Memory) (a x : Nat) (w : Word) (h0 : busAddr x ≠ busAddr a)
    (h1 : busAddr x ≠ busAddr (a + 1)) : readByte (writeWord m a w) x = readByte m x := by
  unfold writeWord
  rw [readByte_writeByte_other _ _ _ _ h1, readByte_writeByte_other _ _ _ _ h0]

/-- The two bytes of an even address are two. -/
theorem busAddr_succ_ne (a : Nat) : busAddr (a + 1) ≠ busAddr a := by
  unfold busAddr Config.memBytes
  omega

theorem wordOf_hi_lo (w : Word) : wordOf (hiByte w) (loByte w) = w := by
  unfold wordOf hiByte loByte
  ext i hi
  by_cases h : i < 8 <;> simp_all <;> grind

/-- A word read back after it is written. -/
theorem readWord_writeWord {m : Memory} (h : Memory.wf m) (a : Nat) (w : Word) : readWord (writeWord m a w) a = w := by
  unfold readWord writeWord
  rw [readByte_writeByte (writeByte_wf h _ _), readByte_writeByte (writeByte_wf h _ _), if_pos rfl,
    if_neg (fun e => busAddr_succ_ne a e.symm), readByte_writeByte h, if_pos rfl, wordOf_hi_lo]

end Sys2Proof.Machine
end

