-- ==== Sys2Proof/Laws/Pedals.lean ====
section
/-! SUPPORT. The pedal link: the pedal records after a change, the choice of the next move, and every pedal sent to 0. -/

namespace Sys2Proof.Machine

theorem updPedal_pedal (p : Pedal) (f : PedalRec → PedalRec) (s : State) (q : Pedal) :
    (updPedal p f s).pedals.pedal q = if q = p then f (s.pedals.pedal p) else s.pedals.pedal q := by
  unfold PedalUnit.pedal
  rw [updPedal_pedals]
  dsimp only
  rw [Bank.get_modify]
  by_cases h : q = p
  · rw [if_pos h, if_pos (by rw [h])]
  · rw [if_neg h, if_neg (fun e => h (pedalIndex_inj e))]

@[simp] theorem setLink_pedal (l : Link) (s : State) (q : Pedal) : (setLink l s).pedals.pedal q = s.pedals.pedal q := rfl

@[simp] theorem setSost_pedal (l : List Key) (s : State) (q : Pedal) : (setSost l s).pedals.pedal q = s.pedals.pedal q := rfl

@[simp] theorem setRx_pedal (b : List Byte) (e : Instant) (s : State) (q : Pedal) :
    (setRx b e s).pedals.pedal q = s.pedals.pedal q := rfl

/-- The pedal chosen has the move that is sent. -/
theorem choosePedal_some {u : PedalUnit} {p : Pedal} {m : Move} (h : choosePedal u = some (p, m)) :
    (u.pedal p).waiting = some m := by
  unfold choosePedal allPedals at h
  simp only [List.foldl_cons, List.foldl_nil] at h
  cases h1 : (u.pedal .damper).waiting <;> cases h2 : (u.pedal .soft).waiting <;>
    cases h3 : (u.pedal .sostenuto).waiting <;> simp only [h1, h2, h3] at h <;> (repeat' split at h) <;>
    simp_all <;> grind

/-- No pedal is chosen exactly when none has a waiting move. -/
theorem choosePedal_none {u : PedalUnit} : choosePedal u = none ↔ ∀ p, (u.pedal p).waiting = none := by
  constructor
  · intro h p
    unfold choosePedal allPedals at h
    simp only [List.foldl_cons, List.foldl_nil] at h
    cases h1 : (u.pedal .damper).waiting <;> cases h2 : (u.pedal .soft).waiting <;>
      cases h3 : (u.pedal .sostenuto).waiting <;> simp only [h1, h2, h3] at h <;> (repeat' split at h) <;>
      first | (cases p <;> assumption) | simp_all
  · intro h
    unfold choosePedal allPedals
    simp [h]

/-- The link's choice: nothing while a frame is in flight or with no move waiting; else one move is sent now, and leaves its
pedal's record. -/
theorem linkSend_cases (s : State) :
    linkSend s = s ∧ (s.pedals.link ≠ .idle ∨ choosePedal s.pedals = none) ∨
      ∃ p m, s.pedals.link = .idle ∧ choosePedal s.pedals = some (p, m) ∧
        linkSend s =
          setLink (.sending { pedal := p, depth := m.depth } s.now none)
            (updPedal p (fun r => { r with waiting := none }) s) := by
  unfold linkSend
  cases hl : s.pedals.link with
  | sending f t a => exact Or.inl ⟨rfl, Or.inl (by simp)⟩
  | awaiting f t => exact Or.inl ⟨rfl, Or.inl (by simp)⟩
  | idle =>
    dsimp only
    cases hc : choosePedal s.pedals with
    | none => exact Or.inl ⟨rfl, Or.inr rfl⟩
    | some x => exact Or.inr ⟨x.1, x.2, rfl, rfl, rfl⟩

theorem linkSend_busy {s : State} (h : s.pedals.link ≠ .idle) : linkSend s = s := by
  rcases linkSend_cases s with h1 | ⟨p, m, h1, _⟩
  · exact h1.1
  · exact absurd h1 h

theorem linkSend_none {s : State} (h : choosePedal s.pedals = none) : linkSend s = s := by
  rcases linkSend_cases s with h1 | ⟨p, m, _, h1, _⟩
  · exact h1.1
  · rw [h] at h1
    exact absurd h1 (by simp)

/-- The link's choice touches the link and the waiting moves alone. -/
theorem linkSend_pedals (s : State) :
    (linkSend s).pedals = { s.pedals with recs := (linkSend s).pedals.recs, link := (linkSend s).pedals.link } := by
  rcases linkSend_cases s with ⟨h, _⟩ | ⟨p, m, _, _, h⟩ <;> rw [h] <;> rfl

theorem linkSend_pedal (s : State) (q : Pedal) :
    (linkSend s).pedals.pedal q =
      { s.pedals.pedal q with waiting := ((linkSend s).pedals.pedal q).waiting } := by
  rcases linkSend_cases s with ⟨h, _⟩ | ⟨p, m, _, _, h⟩ <;> rw [h]
  rw [setLink_pedal, updPedal_pedal]
  split
  · rename_i e
    subst e
    rfl
  · rfl

/-- A pedal with nothing waiting keeps nothing waiting. -/
theorem linkSend_waiting_none {s : State} {q : Pedal} (h : (s.pedals.pedal q).waiting = none) :
    ((linkSend s).pedals.pedal q).waiting = none := by
  rcases linkSend_cases s with ⟨e, _⟩ | ⟨p, m, _, _, e⟩ <;> rw [e]
  · exact h
  · rw [setLink_pedal, updPedal_pedal]
    split
    · rfl
    · exact h

/-- The pedal has been sent to depth 0 from the instant `now`: it is in FAULT, or its move waits, or its move is sent. -/
def sentToZero (s : State) (p : Pedal) (now : Instant) : Prop :=
  (s.pedals.pedal p).motion = .fault ∨ (s.pedals.pedal p).waiting = some { depth := 0, due := now } ∨
    s.pedals.link = .sending { pedal := p, depth := 0 } now none

theorem linkSend_sentToZero {s : State} {p : Pedal} (h : sentToZero s p s.now) : sentToZero (linkSend s) p s.now := by
  unfold sentToZero at *
  rcases linkSend_cases s with ⟨e, _⟩ | ⟨q, m, hl, hc, e⟩ <;> rw [e]
  · exact h
  · rw [setLink_pedal, updPedal_pedal]
    rcases h with h | h | h
    · left
      split
      · rename_i hq
        subst hq
        exact h
      · exact h
    · by_cases hq : p = q
      · subst hq
        have := choosePedal_some hc
        rw [h] at this
        right
        right
        rw [setLink_pedals]
        simp only [Option.some.injEq] at this
        rw [← this]
      · right
        left
        rw [if_neg hq]
        exact h
    · rw [hl] at h
      exact absurd h (by simp)

/-- One pedal of `pedalsToZero`. -/
def zeroPedal (s : State) (p : Pedal) : State :=
  handMove p { depth := 0, due := s.now } (updPedal p (fun r => { r with target := 0 }) s)

theorem pedalsToZero_eq (s : State) :
    pedalsToZero s = zeroPedal (zeroPedal (zeroPedal s .damper) .soft) .sostenuto := by
  show allPedals.foldl zeroPedal s = _
  unfold allPedals
  rw [List.foldl_cons, List.foldl_cons, List.foldl_cons, List.foldl_nil]

theorem zeroPedal_now (s : State) (p : Pedal) : (zeroPedal s p).now = s.now := by simp [zeroPedal]

theorem zeroPedal_link {s : State} {p : Pedal} (h : s.pedals.link ≠ .idle) :
    (zeroPedal s p).pedals.link = s.pedals.link := by
  unfold zeroPedal handMove
  rw [linkSend_busy]
  · unfold putMove
    split <;> rfl
  · unfold putMove
    split <;> exact h

theorem putMove_pedal (p : Pedal) (m : Move) (s : State) (q : Pedal) :
    ((putMove p m s).pedals.pedal q) =
      { s.pedals.pedal q with waiting := ((putMove p m s).pedals.pedal q).waiting } := by
  unfold putMove
  split
  · rfl
  · rw [updPedal_pedal]
    split
    · rename_i e
      subst e
      rfl
    · rfl

/-- The record of a pedal after one pedal is sent to 0. -/
theorem zeroPedal_pedal (s : State) (p q : Pedal) :
    ((zeroPedal s p).pedals.pedal q).depth = (s.pedals.pedal q).depth ∧
      ((zeroPedal s p).pedals.pedal q).motion = (s.pedals.pedal q).motion ∧
      ((zeroPedal s p).pedals.pedal q).retries = (s.pedals.pedal q).retries ∧
      ((zeroPedal s p).pedals.pedal q).travel = (s.pedals.pedal q).travel ∧
      ((zeroPedal s p).pedals.pedal q).target = if q = p then 0 else (s.pedals.pedal q).target := by
  unfold zeroPedal handMove
  rw [linkSend_pedal, putMove_pedal, updPedal_pedal]
  by_cases h : q = p
  · subst h
    simp
  · simp [h]

theorem zeroPedal_pedals (s : State) (p : Pedal) :
    (zeroPedal s p).pedals =
      { s.pedals with recs := (zeroPedal s p).pedals.recs, link := (zeroPedal s p).pedals.link } := by
  unfold zeroPedal handMove
  rw [linkSend_pedals]
  unfold putMove
  split <;> rfl

/-- The pedal handed its move is sent to 0. -/
theorem zeroPedal_self (s : State) (p : Pedal) : sentToZero (zeroPedal s p) p s.now := by
  unfold zeroPedal handMove
  have h : sentToZero (putMove p { depth := 0, due := s.now } (updPedal p (fun r => { r with target := 0 }) s)) p
      s.now := by
    unfold putMove
    split
    · rename_i hf
      exact Or.inl hf
    · right
      left
      rw [updPedal_pedal, if_pos rfl]
  have hn : (putMove p { depth := 0, due := s.now } (updPedal p (fun r => { r with target := 0 }) s)).now = s.now := by
    simp
  have := linkSend_sentToZero (s := putMove p { depth := 0, due := s.now } (updPedal p (fun r => { r with target := 0 }) s))
    (p := p) (by rw [hn]; exact h)
  rw [hn] at this
  exact this

/-- A pedal already sent to 0 stays so while another is handed its move. -/
theorem zeroPedal_other {s : State} {p q : Pedal} (hq : q ≠ p) (h : sentToZero s q s.now) :
    sentToZero (zeroPedal s p) q s.now := by
  unfold zeroPedal handMove
  have h' : sentToZero (putMove p { depth := 0, due := s.now } (updPedal p (fun r => { r with target := 0 }) s)) q
      s.now := by
    unfold sentToZero at h ⊢
    unfold putMove
    split
    · rw [updPedal_pedal, if_neg hq]
      exact h
    · rw [updPedal_pedal, if_neg hq, updPedal_pedal, if_neg hq]
      exact h
  have hn : (putMove p { depth := 0, due := s.now } (updPedal p (fun r => { r with target := 0 }) s)).now = s.now := by
    simp
  have := linkSend_sentToZero (s := putMove p { depth := 0, due := s.now } (updPedal p (fun r => { r with target := 0 }) s))
    (p := q) (by rw [hn]; exact h')
  rw [hn] at this
  exact this

/-- Every pedal is sent to 0 (R58, R59, R61). -/
theorem pedalsToZero_sent (s : State) (p : Pedal) : sentToZero (pedalsToZero s) p s.now := by
  rw [pedalsToZero_eq]
  have n1 := zeroPedal_now s .damper
  have n2 : (zeroPedal (zeroPedal s .damper) .soft).now = s.now := by rw [zeroPedal_now, n1]
  cases p
  · have h := zeroPedal_self s .damper
    have h2 := zeroPedal_other (s := zeroPedal s .damper) (p := .soft) (q := .damper) (by decide) (by rw [n1]; exact h)
    rw [n1] at h2
    have h3 := zeroPedal_other (s := zeroPedal (zeroPedal s .damper) .soft) (p := .sostenuto) (q := .damper) (by decide)
      (by rw [n2]; exact h2)
    rw [n2] at h3
    exact h3
  · have h := zeroPedal_self (zeroPedal s .damper) .soft
    rw [n1] at h
    have h3 := zeroPedal_other (s := zeroPedal (zeroPedal s .damper) .soft) (p := .sostenuto) (q := .soft) (by decide)
      (by rw [n2]; exact h)
    rw [n2] at h3
    exact h3
  · have h := zeroPedal_self (zeroPedal (zeroPedal s .damper) .soft) .sostenuto
    rw [n2] at h
    exact h

/-- What sending every pedal to 0 leaves of each record. -/
theorem pedalsToZero_pedal (s : State) (p : Pedal) :
    (pedalsToZero s).pedals.pedal p =
      { s.pedals.pedal p with target := 0, waiting := ((pedalsToZero s).pedals.pedal p).waiting } := by
  rw [pedalsToZero_eq]
  have h1 := zeroPedal_pedal s .damper p
  have h2 := zeroPedal_pedal (zeroPedal s .damper) .soft p
  have h3 := zeroPedal_pedal (zeroPedal (zeroPedal s .damper) .soft) .sostenuto p
  generalize zeroPedal (zeroPedal (zeroPedal s .damper) .soft) .sostenuto = z at *
  generalize zeroPedal (zeroPedal s .damper) .soft = y at *
  generalize zeroPedal s .damper = x at *
  cases hz : z.pedals.pedal p
  cases p <;> simp_all

theorem pedalsToZero_pedals (s : State) :
    (pedalsToZero s).pedals =
      { s.pedals with recs := (pedalsToZero s).pedals.recs, link := (pedalsToZero s).pedals.link } := by
  rw [pedalsToZero_eq, zeroPedal_pedals, zeroPedal_pedals (zeroPedal s .damper), zeroPedal_pedals s]

theorem pedalsToZero_link {s : State} (h : s.pedals.link ≠ .idle) : (pedalsToZero s).pedals.link = s.pedals.link := by
  rw [pedalsToZero_eq, zeroPedal_link, zeroPedal_link, zeroPedal_link h]
  · rw [zeroPedal_link h]
    exact h
  · rw [zeroPedal_link, zeroPedal_link h]
    · exact h
    · rw [zeroPedal_link h]
      exact h

end Sys2Proof.Machine
end

