-- ==== Sys2Proof/Laws/Receive.lean ====
section
/-! SUPPORT. Frames received whole: a frame of the unit is read as it was made, and the receiver takes it as its kind says (R137, R185). -/

namespace Sys2Proof.Machine

/-- A frame of a kind that the unit sends is read back as it was made. -/
theorem parseFrame_made (k : FrameKind) (hk : k ≠ .move) (p : Pedal) (d : BitVec 4) :
    ∃ b1 b2, frameBytes k p d.toNat = [b1, b2, checkByte b1 b2] ∧
      parseFrame b1 b2 (checkByte b1 b2) = some (k, p, d.toNat) := by
  refine ⟨_, _, rfl, ?_⟩
  revert d
  cases k <;> first | exact absurd rfl hk | (cases p <;> decide)

/-- With no partial frame held, a frame of the unit received whole is taken as its kind says. -/
theorem receiveFrame_made {s : State} (h : s.pedals.rxBytes = []) (k : FrameKind) (hk : k ≠ .move) (p : Pedal)
    (d : BitVec 4) :
    receiveFrame (frameBytes k p d.toNat) s =
      match k with
      | .move => setRx [] s.now s
      | .ack => takeAck p d.toNat (setRx [] s.now s)
      | .nak => takeNak p d.toNat (setRx [] s.now s)
      | .arrived => takeArrived p d.toNat (setRx [] s.now s) := by
  obtain ⟨b1, b2, h1, h2⟩ := parseFrame_made k hk p d
  have hp : ∀ n, s.partialAt n = [] := by
    intro n
    unfold State.partialAt
    rw [h]
    simp
  unfold receiveFrame
  rw [h1]
  simp only [hp, List.nil_append, List.length_nil, List.drop_zero]
  unfold assemble takeFrame
  simp only [h2]
  cases k <;> simp at hk ⊢

/-- A pedal after its fault (R143): the link's next choice touches no other part of its record. -/
theorem faultPedal_pedal (p : Pedal) (cause : Word) (s : State) :
    (faultPedal p cause s).pedals.pedal p = { s.pedals.pedal p with motion := .fault, travel := none, waiting := none } ∧
      (faultPedal p cause s).pedals.sost = if p = .sostenuto then [] else s.pedals.sost := by
  obtain ⟨z, hz⟩ :
      ∃ z, z = raise .pedalFault (toWord (pedalNumber p)) cause
        (if p = .sostenuto then
          setSost [] (abandonFrame p
            (updPedal p (fun r => { r with motion := .fault, travel := none, waiting := none }) s))
        else abandonFrame p (updPedal p (fun r => { r with motion := .fault, travel := none, waiting := none }) s)) :=
    ⟨_, rfl⟩
  have hf : faultPedal p cause s = linkSend z := by
    rw [hz]
    rfl
  have hzp : z.pedals.pedal p = { s.pedals.pedal p with motion := .fault, travel := none, waiting := none } := by
    have h : (abandonFrame p (updPedal p (fun r => { r with motion := .fault, travel := none, waiting := none })
        s)).pedals.pedal p = { s.pedals.pedal p with motion := .fault, travel := none, waiting := none } := by
      unfold abandonFrame
      split <;> (try rw [setLink_pedal]) <;> rw [updPedal_pedal, if_pos rfl]
    rw [hz]
    simp only [raise_keeps]
    split
    · rw [setSost_pedal]
      exact h
    · exact h
  have hzs : z.pedals.sost = if p = .sostenuto then [] else s.pedals.sost := by
    rw [hz]
    simp only [raise_keeps]
    split
    · rfl
    · unfold abandonFrame
      split <;> simp
  have h1 := linkSend_pedal z p
  have h2 := congrArg PedalUnit.sost (linkSend_pedals z)
  have h3 := linkSend_waiting_none (s := z) (q := p) (by rw [hzp])
  rw [hf]
  exact ⟨by rw [h1, h3, hzp], by rw [h2]; exact hzs⟩

end Sys2Proof.Machine
end

