-- ==== Sys2Proof/Laws/Row.lean ====
section
/-! SUPPORT. What a row's effect starts from: the state it sees, its parts, and the rows in terms of it. -/

namespace Sys2Proof.Machine

/-- `y` is what the effect of a row with stamp `t` starts from at `s`: only the instant, the PLAYING time counted, the grant
of the port, the update list and the pending result may have moved on. -/
def Seen (s : State) (t : Instant) (y : State) : Prop :=
  y = { s.withBook y with now := s.at t, ntc := s.ntc, pwait := s.pwait, report := s.report }

/-- The parts of the state that an effect starts from. -/
theorem seen_parts {s y : State} {t : Instant} (h : Seen s t y) :
    y.now = s.at t ∧ y.pending = s.pending ∧ y.rst = s.rst ∧ y.inh = s.inh ∧ y.spb = s.spb ∧ y.pd = s.pd ∧
      y.kdNext = s.kdNext ∧ y.mem = s.mem ∧ y.ring = s.ring ∧ y.track = s.track ∧ y.expr = s.expr ∧
      y.sched = s.sched ∧ y.fire = s.fire ∧ y.keys = s.keys ∧ y.heat = s.heat ∧ y.pedals = s.pedals ∧
      y.cue = s.cue ∧ y.report = s.report ∧ y.arb.waiting = s.arb.waiting ∧ (∀ k, y.key k = s.key k) := by
  rw [h]
  simp [State.withBook, State.key]

/-- The playback record that an effect starts from. -/
theorem seen_clock {s y : State} {t : Instant} (h : Seen s t y) :
    y.clock.state = s.clock.state ∧ y.clock.cause = s.clock.cause ∧ y.clock.expected = s.clock.expected ∧
      y.clock.nextDue = s.clock.nextDue ∧ y.clock.waitingDue = s.clock.waitingDue ∧
      y.clock.lineInProgress = s.clock.lineInProgress ∧ y.clock.lineDue = s.clock.lineDue ∧
      y.clock.pendingHold = s.clock.pendingHold ∧ y.clock.stepInProgress = s.clock.stepInProgress ∧
      y.clock.starveTimer = s.clock.starveTimer ∧ y.clock.starvedSince = s.clock.starvedSince ∧
      y.clock.drained = s.clock.drained := by
  rw [h]
  simp [State.withBook]

/-- The Setup Shadow that an effect starts from. -/
theorem seen_shadow {s y : State} {t : Instant} (h : Seen s t y) :
    y.shadow.loaded = s.shadow.loaded ∧ y.shadow.words = s.shadow.words ∧ y.shadow.readCount = s.shadow.readCount ∧
      y.shadow.arg = s.shadow.arg ∧ y.shadow.count = s.shadow.count ∧ y.shadow.loadFault = s.shadow.loadFault ∧
      y.shadow.held = s.shadow.held ∧ (∀ off, y.shadow.nat off = s.shadow.nat off) ∧
      (∀ off, y.shadow.word off = s.shadow.word off) := by
  rw [h]
  simp [State.withBook, Shadow.nat, Shadow.word]

theorem seen_advance (s : State) (t : Instant) : Seen s t (advance t s) := by
  apply state_ext
  case clock => apply clock_ext <;> simp [State.withBook]
  case arb => apply arbiter_ext <;> simp [State.withBook]
  case shadow => apply shadow_ext <;> simp [State.withBook]
  all_goals simp [State.withBook, State.at]

theorem seen_grant (s : State) (t : Instant) : Seen s t (grantPort (advance t s)) := by
  apply state_ext
  case clock => apply clock_ext <;> simp [State.withBook]
  case arb => apply arbiter_ext <;> simp [State.withBook]
  case shadow => apply shadow_ext <;> simp [State.withBook]
  all_goals simp [State.withBook, State.at]

/-- A row that is no processor cycle: its effect on the state it sees, then the end of the row. An owner of the port stays the
owner. -/
theorem partRow_seen {s : State} {t : Instant} (h : s.rst = false) :
    ∃ y, Seen s t y ∧ (∀ e, partRow t e s = .next (drivePins (e y))) ∧
      (s.arb.owner.isSome = true → y.arb.owner = s.arb.owner) := by
  refine ⟨grantPort (advance t s), seen_grant s t, fun e => partRow_next h, ?_⟩
  intro ho
  rw [grantPort_busy _ (by simp [ho])]
  simp

/-- A cycle that arrives at the open port. -/
theorem cycleRow_seen {s : State} {t : Instant} {c : ProcCycle} (h : s.portOpen c.order) :
    ∃ y, Seen s t y ∧ y.arb.owner = none ∧ cycleRow t c s = .next (drivePins (completeCycle c y)) :=
  ⟨advance t s, seen_advance s t, by simp [h.1.2.1], cycleRow_open h⟩

/-- A withheld write completes whoever owns the port (R164, R9). -/
theorem cycleRow_withheld {s : State} {t : Instant} {p : ProcCycle} (hr : s.rst = false) (hw : s.arb.waiting = none)
    (hh : s.shadow.held = none) :
    ∃ y, Seen s t y ∧
      (p.isWrite = true → y.withholds p = true → cycleRow t p s = .next (drivePins (completeCycle p y))) := by
  by_cases ho : p.order.portFirst = true
  · refine ⟨advance t s, seen_advance s t, ?_⟩
    intro h1 h2
    unfold cycleRow
    rw [hr]
    simp [ho]
    unfold arriveCycle
    simp [hw, hh, h1, h2]
  · refine ⟨grantPort (advance t s), seen_grant s t, ?_⟩
    intro h1 h2
    unfold cycleRow
    rw [hr]
    simp [ho]
    unfold arriveCycle
    simp [hw, hh, h1, h2]

theorem seen_classify {s y : State} {t : Instant} (h : Seen s t y) (a : Nat) : y.classify a = s.classify a := by
  have f := seen_parts h
  have g := seen_shadow h
  exact classify_congr (by simp [f]) (by simp [g]) (by simp [f]) (by simp [f]) a

theorem seen_noBusCue {s y : State} {t : Instant} (h : Seen s t y) (hb : s.noBusCue) : y.noBusCue :=
  (noBusCue_congr (seen_shadow h).2.1).mpr hb

/-- A write that no BUS cue sees, before or after, is its effect by class. -/
theorem completeCycle_plain {y : State} (c : ProcCycle) (hw : c.isWrite = true) (hh : y.holdsCommand c = false)
    (h : y.noBusCue) (h' : (writeEffect c y).noBusCue) : completeCycle c y = writeEffect c y := by
  rw [completeCycle_write c hw hh]
  exact showAround_noBusCue _ _ h h'

/-- With no processor cycle waiting nobody is served. -/
theorem serveWaiting_none {s : State} (h : s.arb.waiting = none) : serveWaiting s = s := by
  unfold serveWaiting
  rw [h]

/-- A processor-cycle row is its cycle. -/
theorem exec_cycleOf {s : State} {c : Instr} {t : Instant} {p : ProcCycle} (h : s.cycleOf c = some (t, p)) :
    exec c s = cycleRow t p s := by
  cases c <;> simp only [State.cycleOf, Option.some.injEq, Prod.mk.injEq, reduceCtorEq] at h <;>
    (obtain ⟨rfl, rfl⟩ := h; rfl)

end Sys2Proof.Machine
end

