-- ==== Sys2Proof/Laws/Stop.lean ====
section
/-! SUPPORT. STOP, starvation and SILENCE: what the shared steps leave of each part of the state (R59, R61, R20, R39). -/

namespace Sys2Proof.Machine

theorem abandonLine_clock (s : State) :
    (abandonLine s).clock =
      { s.clock with
        lineInProgress := if s.lineUndecoded then false else s.clock.lineInProgress
        lineDue := if s.lineUndecoded then none else s.clock.lineDue } := by
  unfold abandonLine State.lineUndecoded
  cases hd : s.track.decode <;> by_cases hl : s.clock.lineInProgress = true <;> simp [hl]
  all_goals (apply clock_ext <;> simp [hl])

theorem abandonLine_ring (s : State) :
    (abandonLine s).ring =
      if s.lineUndecoded then
        { s.ring with
          slots := s.ring.slots.set s.ring.head {}, head := s.ring.after s.ring.head, fetch := none, buffer := [] }
      else s.ring := by
  unfold abandonLine State.lineUndecoded
  cases hd : s.track.decode <;> by_cases hl : s.clock.lineInProgress = true <;> simp [hl]

theorem abandonLine_cue (s : State) :
    (abandonLine s).cue = if s.lineUndecoded then { s.cue with exempt := false } else s.cue := by
  unfold abandonLine State.lineUndecoded
  cases hd : s.track.decode <;> by_cases hl : s.clock.lineInProgress = true <;> simp [hl]

theorem abandonLine_track (s : State) :
    (abandonLine s).track = { s.track with decode := s.track.decode.map (fun d => { d with muted := true }) } := by
  unfold abandonLine
  cases hd : s.track.decode <;> by_cases hl : s.clock.lineInProgress = true <;> simp [hl]
  all_goals (apply track_ext <;> simp [hd])

theorem abandonLine_waiting (s : State) : (abandonLine s).arb.waiting = s.arb.waiting := by
  unfold abandonLine
  cases hd : s.track.decode <;> by_cases hl : s.clock.lineInProgress = true <;> simp [hl]

@[simp] theorem stopClock_waiting (s : State) : (stopClock s).arb.waiting = s.arb.waiting := by
  simp [stopClock, abandonLine_waiting]

/-- Every key with a waiting strike is told. -/
theorem stopClock_key (s : State) (k : Key) : (stopClock s).key k = s.keyTold k := by
  unfold stopClock
  rw [emptyQueue_key]
  unfold State.keyTold
  simp [State.key]

/-- STOPPING entered by steps whose part for the keys, `g`, touches the key records and the firing count alone. -/
theorem stoppedFrom_of {s x z : State} {c : Cause} (g : State → State)
    (hg : ∀ y, (g y).clock = y.clock ∧ (g y).track = y.track ∧ (g y).ring = y.ring ∧ (g y).cue = y.cue ∧
      (g y).sched = y.sched ∧ (g y).fire.queue = y.fire.queue ∧ (g y).pedals = y.pedals ∧ (g y).now = y.now)
    (hx : x = pedalsToZero (g (stopClock (setPlay .stopping c s))))
    (hz : z.clock = x.clock ∧ z.track = x.track ∧ z.ring = x.ring ∧ z.cue = x.cue ∧ z.sched = x.sched ∧
      z.fire = x.fire ∧ z.pedals = x.pedals) : s.stoppedFrom z s.now c := by
  obtain ⟨z1, z2, z3, z4, z5, z6, z7⟩ := hz
  have hsent := pedalsToZero_sent (g (stopClock (setPlay .stopping c s)))
  have hped := pedalsToZero_pedal (g (stopClock (setPlay .stopping c s)))
  have hpeds := pedalsToZero_pedals (g (stopClock (setPlay .stopping c s)))
  have hlink := pedalsToZero_link (s := g (stopClock (setPlay .stopping c s)))
  obtain ⟨g1, g2, g3, g4, g5, g6, g7, g8⟩ := hg (stopClock (setPlay .stopping c s))
  have hn : (stopClock (setPlay .stopping c s)).now = s.now := by simp
  have hp : (stopClock (setPlay .stopping c s)).pedals = s.pedals := by simp
  refine ⟨?_, ?_, ?_, ?_, ?_, ?_, ?_, ?_, ?_⟩
  · rw [z1, show x.clock = (g (stopClock (setPlay .stopping c s))).clock by rw [hx]; simp, g1]
    apply clock_ext <;> simp [stopClock, abandonLine_clock, State.lineUndecoded] <;> rfl
  · rw [z2, show x.track = (g (stopClock (setPlay .stopping c s))).track by rw [hx]; simp, g2]
    apply track_ext <;> simp [stopClock, abandonLine_track]
  · rw [z3, show x.ring = (g (stopClock (setPlay .stopping c s))).ring by rw [hx]; simp, g3]
    simp [stopClock, abandonLine_ring, State.lineUndecoded]
  · rw [z4, show x.cue = (g (stopClock (setPlay .stopping c s))).cue by rw [hx]; simp, g4]
    simp [stopClock, abandonLine_cue, State.lineUndecoded]
  · rw [z5, show x.sched = (g (stopClock (setPlay .stopping c s))).sched by rw [hx]; simp, g5]
    simp [stopClock]
  · rw [z6, show x.fire = (g (stopClock (setPlay .stopping c s))).fire by rw [hx]; simp, g6]
    simp [stopClock]
  · intro p
    rw [z7, hx]
    have h1 := hped p
    have h2 := hsent p
    rw [g7, hp] at h1
    unfold sentToZero at h2
    rw [g8, hn] at h2
    refine ⟨h1, ?_⟩
    rcases h2 with h | h | h
    · left
      rw [h1] at h
      exact h
    · right
      left
      exact h
    · right
      right
      exact h
  · rw [z7, hx, hpeds, g7, hp]
  · intro hl
    rw [z7, hx, hlink]
    · rw [g7, hp]
    · rw [g7, hp]
      exact hl

/-- The part of STOP for the keys touches the key records alone. -/
theorem stopKeys_others (y : State) :
    (stopKeys y).clock = y.clock ∧ (stopKeys y).track = y.track ∧ (stopKeys y).ring = y.ring ∧
      (stopKeys y).cue = y.cue ∧ (stopKeys y).sched = y.sched ∧ (stopKeys y).fire.queue = y.fire.queue ∧
      (stopKeys y).pedals = y.pedals ∧ (stopKeys y).now = y.now := by
  simp [stopKeys_fire]

/-- The part of SILENCE for the keys touches the key records and the firing count alone. -/
theorem silenceKeys_others (y : State) :
    (silenceKeys y).clock = y.clock ∧ (silenceKeys y).track = y.track ∧ (silenceKeys y).ring = y.ring ∧
      (silenceKeys y).cue = y.cue ∧ (silenceKeys y).sched = y.sched ∧ (silenceKeys y).fire.queue = y.fire.queue ∧
      (silenceKeys y).pedals = y.pedals ∧ (silenceKeys y).now = y.now := by
  simp

theorem stoppedFrom_congr {s s1 z : State} {n : Instant} {c : Cause} (h : s1.stoppedFrom z n c)
    (hc : s1.clock = { s.clock with exprCount := s1.clock.exprCount }) (ht : s1.track = s.track)
    (hr : s1.ring = s.ring) (hq : s1.cue = s.cue) (hp : s1.pedals = s.pedals) : s.stoppedFrom z n c := by
  have hu : s1.lineUndecoded = s.lineUndecoded := by
    unfold State.lineUndecoded
    rw [hc, ht]
  obtain ⟨h1, h2, h3, h4, h5, h6, h7, h8, h9⟩ := h
  rw [hu, hc] at h1
  rw [ht] at h2
  rw [hu, hr] at h3
  rw [hu, hq] at h4
  rw [hp] at h7 h8 h9
  exact ⟨h1, h2, h3, h4, h5, h6, h7, h8, h9⟩

theorem keyTold_congr {s s1 : State} (hk : s1.keys = s.keys) (hf : s1.fire.queue = s.fire.queue) (k : Key) :
    s1.keyTold k = s.keyTold k := by
  unfold State.keyTold State.key
  rw [hk, hf]

/-- A key that is told keeps its state. -/
theorem keyTold_state (s : State) (k : Key) : (s.keyTold k).state = (s.key k).state := by
  unfold State.keyTold
  split <;> simp

theorem enterStopping_key (c : Cause) (s : State) (k : Key) :
    (enterStopping c s).key k =
      if (s.key k).state = .holding then (s.keyTold k).releasing (s.now + 100 * s.shadow.recovery)
      else s.keyTold k := by
  have h1 : (enterStopping c s).key k = (stopKeys (stopClock (setPlay .stopping c s))).key k := by
    simp [enterStopping, State.key]
  rw [h1, stopKeys_key, stopClock_key, keyTold_congr (s := s) (by simp) (by simp), keyTold_state]
  simp
  rfl

theorem enterSilence_key (s : State) (k : Key) :
    (enterSilence s).key k =
      if (s.key k).state = .firing ∨ (s.key k).state = .holding then
        (s.keyTold k).releasing (s.now + 100 * s.shadow.recovery)
      else s.keyTold k := by
  have h1 : (enterSilence s).key k = (silenceKeys (stopClock (setPlay .stopping .silence s))).key k := by
    simp [enterSilence, State.key]
  rw [h1, silenceKeys_key, stopClock_key, keyTold_congr (s := s) (by simp) (by simp), keyTold_state]
  simp
  rfl

@[simp] theorem enterStopping_waiting (c : Cause) (s : State) : (enterStopping c s).arb.waiting = s.arb.waiting := by
  simp [enterStopping]

@[simp] theorem enterSilence_waiting (s : State) : (enterSilence s).arb.waiting = s.arb.waiting := by
  simp [enterSilence]

end Sys2Proof.Machine
end

