-- ==== Sys2Proof/Tests/Slice0.lean ====
section
/-! SUPPORT. Tests of the model's own: the refusals of the well-formedness check, worked examples of the manual, and for every statement with hypotheses a state and operands that meet them. -/

namespace Sys2Proof.Tests

open Sys2Proof.Machine

set_option Elab.async false

/-! ## Small states -/

/-- Orders: the cue test first, the cycle first at the port. -/
def first : BusOrder := { cueFirst := true, portFirst := true }

/-- Out of reset, in a playback state, with a loaded shadow of zeros. -/
def inState (p : Playback) : State := { rst := false, clock := { state := p }, shadow := { loaded := true } }

/-- The same with words of the setup shadow. -/
def withWords (words : List (Nat × Nat)) (s : State) : State :=
  words.foldl (fun s e => { s with shadow := s.shadow.put e.1 (toWord e.2) }) s

/-- The same with a key's record. -/
def withKey (k : Key) (r : KeyRec) (s : State) : State := { s with keys := s.keys.set k r }

/-- The same with a roll ring of 16 slots at 0x40000 whose slot `i` is as given. -/
def withSlot (i : Fin 128) (r : Slot) (s : State) : State :=
  { s with ring := { base := 0x40000, nslots := 16, slots := (Bank.replicate 128 {}).set i r } }

/-- The same with a part access on the port. -/
def owning (a : Access) (s : State) : State := { s with arb := { owner := some a } }

/-- The state after a command. -/
def after (c : Instr) (s : State) : State :=
  match exec c s with
  | .next s' => s'
  | .fault _ => s
  | .refused _ => s

/-! ## The well-formedness check refuses -/

theorem test_unknown_command_of_a_known_code_is_refused :
    (List.range 9).all
      (fun n => !(Instr.unknownCommand 0 first .low (toWord (n + 1))).wellFormed) = true := by decide
theorem test_unknown_command_codes_are_taken :
    (Instr.unknownCommand 0 first .both 0x0100).wellFormed = true ∧
    (Instr.unknownCommand 0 first .low 10).wellFormed = true ∧
    (Instr.unknownCommand 0 first .high 3).wellFormed = true := by decide
theorem test_live_write_outside_its_class_is_refused :
    (Instr.liveFieldWrite 0 first 0x0E1 .both 0).wellFormed = false ∧
    (Instr.liveFieldWrite 0 first 0x0EE .both 0).wellFormed = false ∧
    (Instr.liveFieldWrite 0 first 0x100 .both 0).wellFormed = false ∧
    (Instr.liveFieldWrite 0 first 0x080 .both 0).wellFormed = false := by decide
theorem test_live_writes_are_taken :
    (Instr.liveFieldWrite 0 first 0x0E0 .both 0).wellFormed = true ∧
    (Instr.liveFieldWrite 0 first 0x0EC .both 0).wellFormed = true ∧
    (Instr.liveFieldWrite 0 first 0x180 .both 0).wellFormed = true ∧
    (Instr.liveFieldWrite 0 first 0x1FE .both 0).wellFormed = true := by decide
theorem test_locked_write_outside_its_class_is_refused :
    (Instr.lockedFieldWrite 0 first 0x081 .both 0).wellFormed = false ∧
    (Instr.lockedFieldWrite 0 first 0x0E0 .both 0).wellFormed = false ∧
    (Instr.lockedFieldWrite 0 first 0x4C0 .both 0).wellFormed = false := by decide
theorem test_part_written_write_outside_its_class_is_refused :
    (Instr.partWrittenWordWrite 0 first 0x011 .both 0).wellFormed = false ∧
    (Instr.partWrittenWordWrite 0 first 0x006 .both 0).wellFormed = false ∧
    (Instr.partWrittenWordWrite 0 first 0x6B0 .both 0).wellFormed = false := by decide
theorem test_invalid_frame_that_is_an_arrival_is_refused :
    (Instr.invalidFrame 0 0x43 0x0F 0xAD).wellFormed = false := by decide
theorem test_invalid_frames_are_taken :
    (Instr.invalidFrame 0 0x43 0x0F 0xAE).wellFormed = true ∧
    (Instr.invalidFrame 0 0x21 0x05 (checkByte 0x21 0x05)).wellFormed = true := by decide

/-! ## Worked examples of the manual -/

/-- The table gives no bits, so no word spells a command. -/
theorem test_no_word_spells_a_command : decodeTableWord 16 0x0003 = none := rfl

/-- The frames of section 12.7: MOVE damper 15, and an ARRIVED of the sostenuto pedal read back. -/
theorem test_link_frames :
    frameBytes .move .damper 15 = [0x11, 0x0F, 0xDF] ∧
    parseFrame 0x43 0x0F 0xAD = some (.arrived, .sostenuto, 15) := by decide

/-- A write keeps memory canonical: the value an unlisted address reads as removes the entry. -/
theorem test_memory_is_canonical :
    writeWord [] 4 0x1200 = [(5, 0x12)] ∧ writeWord (writeWord [] 4 0x1234) 4 0 = [] ∧
    readWord (writeWord [] 4 0x1234) 4 = 0x1234 := by decide

/-- The settle, swell and fade rows of chapter 4 on one side. -/
theorem test_levels :
    levelAfter { level := 80, target := 80, swell := true } 4 24 16 = 84 ∧
    levelAfter { level := 92, target := 80, swell := true, rush := true } 4 24 16 = 116 ∧
    levelAfter { level := 180, target := 272 } 4 24 16 = 196 ∧
    levelAfter { level := 212, target := 272, fade := true } 4 24 16 = 212 ∧
    levelAfter { level := 260, target := 272 } 4 24 16 = 272 := by decide

/-- The line of section 12.7 (R187): its check word, and the edge at column 5. -/
theorem test_line_check_and_edge :
    let line : List Word := [0x0103, 0x001F, 0, 0, 0, 0, 0, 0x0070, 0, 0, 0, 0, 0, 0, 0, 0, 0]
    lineSum line = 0x0192 ∧ ({ buffer := line } : Ring).edge = some 5 ∧ ({ buffer := line } : Ring).cellOpen 102 = true ∧
    ({ buffer := line } : Ring).cellOpen 103 = false := by
  decide +kernel

/-- A ring write of word 3 of slot 2 fills the slot, and word 17 then tears the line. -/
theorem test_ring_write_fills_then_tears :
    ((after (.ringWrite 5 first 0x20027 .both 7) (withSlot 2 {} (inState .ready))).ring.slots.get 2) =
      { state := .filling, written := [3] } ∧
    ((after (.ringWrite 5 first 0x20035 .both 7)
      (withSlot 2 { state := .filling, written := [3] } (inState .ready))).ring.slots.get 2) = {} := by
  decide +kernel

/-- From reset a LOAD is held while the argument is read, and then begins the load. -/
theorem test_load_from_reset :
    (after (.load 1 first none) State.reset).pwait = true ∧
    (after (.commandArgRead 3) (owning .argRead { State.reset with
      updates := [], shadow := { held := some (State.reset.commandWrite 1 none first) } })).clock.state = .loading := by
  decide +kernel

/-- A pulse ends into HOLDING, and the MIN_HOLD timer then releases a key that owes it. -/
theorem test_pulse_then_release :
    let s := withWords [(0x0A0, 50), (0x0A2, 10), (0x0E2, 4)] (inState .playing)
    ((after (.pulseEnd 100 7 true)
      { withKey 7 { state := .firing, timer := some 100, duty := 16 } s with fire := { count := 1 } }).key 7) =
      { state := .holding, timer := some 1100, duty := 4, holdStart := 100 } ∧
    ((after (.minHoldExpiry 100 7)
      (withKey 7 { state := .holding, timer := some 100, duty := 4, releaseOwed := true } s)).key 7) =
      { state := .releasing, timer := some 5100 } := by
  decide +kernel

/-- A heat step of a firing key, the gain being 32: 16 * 32 / 16 - 3. -/
theorem test_heat_step :
    ((after (.heatStep 1000) { withKey 0 { state := .firing, duty := 16, heat := 100 } (inState .playing) with
      heat := { gain := 32, cool := 3, next := 1000 } }).key 0).heat = 129 := by
  decide +kernel

/-! ## Hypotheses that are met -/

/-- For Obligations.step_takes_the_front_command_or_idles. -/
theorem witness_step :
    (inState .ready).pending = [] ∧ State.reset.pending = [] := by
  decide +kernel

/-- For Obligations.memory_changes_only_where_a_cycle_stores. -/
theorem witness_memory_changes :
    (State.reset.cycleOf (.processorRead 0 first 0 .both)).isSome = true ∧ (State.reset.cycleOf (.ordinaryWrite 0 first 0xFFFFF .high 1)).isSome = true ∧ State.reset.reachesMemory (.kdPeriodStart 0) = false := by
  decide +kernel

/-- For Obligations.cycle_waits_behind_a_part_access. -/
theorem witness_cycle_waits :
    let s := owning .argRead (inState .playing)
    let p : ProcCycle := { isWrite := true, wa := 0x80000, lanes := .both, data := 7, order := first }
    let v := fun acc isWrite => { inState .playing with arb := { owner := some acc, waiting := some { p with isWrite := isWrite } } }
    s.cycleOf (.ordinaryWrite 0 first 0x80000 .both 7) = some (0, p) ∧ s.rst = false ∧ s.arb.owner = some .argRead ∧
    s.arb.waiting = none ∧ s.shadow.held = none ∧ (p.isWrite && s.withholds p) = false ∧ s.holdsCommand p = false ∧
    (∀ acc ∈ [Access.lineFetch 0 0x40000 false, .setupLoad 0x080 false, .reportWord 0x30000 7 false, .statusWord 0x010 7],
      ∀ b ∈ [true, false], (v acc b).rst = false ∧ (v acc b).arb.owner = some acc ∧
        (v acc b).arb.waiting = some { p with isWrite := b } ∧ (v acc b).shadow.held = none ∧ (v acc b).noBusCue ∧
        (v acc b).classify p.addr = .ordinary) := by
  simp only [State.noBusCue]
  decide +kernel

/-- For Obligations.ordinary_cycles_pass_unaltered. -/
theorem witness_ordinary :
    let s := { inState .playing with report := { copies := some { base := 0x30000, size := 16 } } }
    s.portOpen first ∧ s.noBusCue ∧ s.classify (2 * (0x18000 : BitVec 20).toNat) = .reportRing ∧
    s.classify (2 * (0x1803F : BitVec 20).toNat) = .reportRing ∧ s.classify (2 * (0x18040 : BitVec 20).toNat) = .ordinary ∧
    s.classify (2 * (0x00800 : BitVec 20).toNat) = .ordinary := by
  simp only [State.portOpen, State.portIdle, State.noRequest, State.noBusCue]
  decide +kernel

/-- For Obligations.setup_writes_in_idle_pass_unwatched. -/
theorem witness_setup_write_in_idle :
    let s := inState .idle
    let p := s.pageWrite 0xFFE .both 1 first
    s.cycleOf (.ordinaryWrite 0 first 0x7FF .both 1) = some (0, p) ∧ p.isWrite = true ∧ s.portOpen p.order ∧
    s.clock.state = .idle ∧ s.classify p.addr = .setup 0xFFE ∧ 0xFFE ≠ offCommand := by
  simp only [State.portOpen, State.portIdle, State.noRequest]
  decide +kernel

/-- For Obligations.guarded_and_out_of_range_writes_are_withheld. -/
theorem witness_guarded :
    let s := withWords [(0x08A, 16)] (inState .playing)
    let p := s.pageWrite 0x0E0 .both 24 first
    let q := s.pageWrite offRptRead .both 16 first
    s.rst = false ∧ s.arb.waiting = none ∧ s.shadow.held = none ∧ s.noBusCue ∧ s.clock.state ≠ .idle ∧
    (Instr.lockedFieldWrite 0 first 0x080 .both 0).wellFormed = true ∧
    (Instr.lockedFieldWrite 0 first 0x57E .both 0).wellFormed = true ∧
    (Instr.partWrittenWordWrite 0 first 0x004 .both 0).wellFormed = true ∧
    (Instr.partWrittenWordWrite 0 first 0x6AE .both 0).wellFormed = true ∧
    s.cycleOf (.liveFieldWrite 0 first 0x0E0 .both 24) = some (0, p) ∧ p.isWrite = true ∧
    s.classify p.addr = .setup 0x0E0 ∧ pageWord 0x0E0 = .live ∧ s.validating = false ∧
    s.liveOk 0x0E0 (s.mergedField 0x0E0 p) = false ∧
    s.cycleOf (.rptReadWrite 0 first .both 16) = some (0, q) ∧ s.classify q.addr = .setup offRptRead ∧
    pageWord offRptRead = .live ∧ s.liveOk offRptRead (s.mergedField offRptRead q) = false := by
  simp only [State.noBusCue]
  decide +kernel

/-- For Obligations.live_write_in_range_is_taken. -/
theorem witness_live_write :
    let s := withWords [(0x08A, 16)] (inState .held)
    s.portOpen first ∧ s.noBusCue ∧ s.clock.state ≠ .idle ∧ s.validating = false ∧
    (Instr.liveFieldWrite 0 first 0x0E0 .both 25).wellFormed = true ∧ liveWordOk 0x0E0 25 = true ∧
    liveWordOk 0x0E0 400 = true ∧ liveWordOk 0x0E0 401 = false ∧
    (Instr.liveFieldWrite 0 first 0x0E2 .low 15).wellFormed = true ∧
    liveWordOk 0x0E2 (laneMerge .low (s.shadow.word 0x0E2) 15) = true ∧ liveWordOk 0x1FE 127 = true ∧
    (laneMerge .both (s.shadow.word offNotice) 63).toNat ≤ 63 ∧
    (laneMerge .both (s.shadow.word offRptRead) 15).toNat < s.shadow.rptSize := by
  simp only [State.portOpen, State.portIdle, State.noRequest, State.noBusCue]
  decide +kernel

/-- For Obligations.live_write_during_a_load. -/
theorem witness_live_write_in_load :
    let s := { inState .loading with shadow := { readCount := 1 } }
    let t := { inState .loading with shadow := { readCount := loadOrder.length } }
    let p := s.pageWrite 0x0E0 .both 25 first
    let q := s.pageWrite 0x0E0 .both 24 first
    s.cycleOf (.liveFieldWrite 0 first 0x0E0 .both 25) = some (0, p) ∧ p.isWrite = true ∧
    s.classify p.addr = .setup 0x0E0 ∧ pageWord 0x0E0 = .live ∧ s.portOpen p.order ∧ s.validating = true ∧
    s.alreadyRead 0x0E0 = false ∧
    t.cycleOf (.liveFieldWrite 0 first 0x0E0 .both 24) = some (0, q) ∧ t.classify q.addr = .setup 0x0E0 ∧
    t.portOpen q.order ∧ t.validating = true ∧ t.alreadyRead 0x0E0 = true ∧
    liveWordOk 0x0E0 (t.mergedField 0x0E0 p) = true ∧ liveWordOk 0x0E0 (t.mergedField 0x0E0 q) = false ∧
    t.report.active = false ∧
    loadOrder.head? = some offRptRead ∧ s.alreadyRead offRptRead = true ∧ liveWordOk offRptRead 9 = true := by
  simp only [State.portOpen, State.portIdle, State.noRequest]
  decide +kernel

/-- For Obligations.key_table_write_locks_unlocks_and_drives. -/
theorem witness_key_table :
    let s := withKey 87 { state := .locked, source := .off } (inState .playing)
    s.portOpen first ∧ s.noBusCue ∧ s.clock.state ≠ .idle ∧ s.validating = false ∧
    (∀ w ∈ [0x000, 0x001, 0x102, 0x3E00], keyWordOk (laneMerge .both (s.shadow.word (offKeyTable 87)) (toWord w)).toNat = true) ∧
    keyWordSource 0x102 ≠ .timer ∧ keyWordDuty 0x102 = 16 ∧ keyWordSource 0x000 = .timer ∧ s.fire.queue = [] ∧
    (s.key 0).state ≠ .locked ∧ (s.key 87).state = .locked := by
  simp only [State.portOpen, State.portIdle, State.noRequest, State.noBusCue]
  decide +kernel

/-- For Obligations.cue_flags_and_arming_are_cleared. -/
theorem witness_cue_flags :
    let s := fun (arg : Nat) => withWords [(0x10A, 0xFFFF), (0x12A, 0xFFFF)] { inState .held with shadow := { loaded := true, arg := toWord arg } }
    (∀ a ∈ [1, 2, 3], (s a).portOpen first ∧ (s a).noBusCue ∧ (s a).clock.state ≠ .idle ∧
      1 ≤ (s a).shadow.arg.toNat ∧ (s a).shadow.arg.toNat ≤ 3) ∧ (s 1).validating = false ∧
    (s 1).blockOk (offBlock .a) 2 = true ∧ (s 1).blockOk (offBlock .b + 2 * 15) 0xFFFF = true ∧
    (laneMerge .both ((s 1).shadow.word offSequential) 1).toNat ≤ 1 := by
  simp only [State.portOpen, State.portIdle, State.noRequest, State.noBusCue]
  decide +kernel

/-- For Obligations.agreement_compares_the_masked_bits. -/
theorem witness_agreement :
    (3 : Nat) < 2 ^ 2 ∧ agrees 3 3 (2 ^ 2 - 1) = true ∧ agrees 3 2 (2 ^ 2 - 1) = false ∧ agrees 7 0 0 = true := by
  decide +kernel

/-- For Obligations.bus_cue_matches_a_read. -/
theorem witness_bus_cue :
    let s := fun (st : Playback) (act seq : Nat) (armed line : Bool) =>
      { withWords [(offSequential, seq), (0x120, 2), (0x122, act), (0x12C, 2), (0x12E, 0x41), (0x132, 0xFFFF), (0x134, 31)]
          (inState st) with cue := { bArmed := armed }, clock := { state := st, lineInProgress := line } }
    let p : ProcCycle := { isWrite := false, wa := 0x20, lanes := .high, data := 0, order := first }
    let q : ProcCycle := { p with isWrite := true, lanes := .high }
    (∀ x ∈ [s .held 0 0 false true, s .starved 1 0 false false, s .playing 1 0 false true, s .playing 1 1 true false,
        s .stopping 1 1 false false],
      x.rst = false ∧ x.arb.owner = none ∧ x.arb.waiting = none ∧ x.shadow.held = none ∧ first.portFirst = true ∧
      x.watching = true ∧ x.cue.flag .b = false ∧ x.cueNat .b 0 = 2 ∧ x.cueNat .a 0 ≠ 2 ∧
      agrees 0x41 (x.cueAddr .b 7) (x.cueAddr .b 9) = true ∧ agrees 0 (x.cueNat .b 11) (x.cueNat .b 12) = true ∧
      x.cueNat .b 6 = 2) ∧
    (s .held 0 0 true true).cueNat .b 1 = 0 ∧ (s .playing 1 1 true false).cueNat .b 1 = 1 ∧
    (s .playing 1 1 true false).shadow.sequential = true ∧ (s .playing 1 1 true false).cue.bArmed = true ∧
    (s .held 0 0 true true).cycleOf (.processorRead 0 first 0x20 .high) = some (0, p) ∧
    (s .held 0 0 true true).cycleOf (.partWrittenWordWrite 0 first 0x040 .high 0) = some (0, q) ∧
    (s .held 0 0 true true).classify q.addr = .setup 0x040 ∧ pageWord 0x040 = .partWritten := by
  decide +kernel

/-- For Obligations.before_hold_keeps_the_line. -/
theorem witness_before_hold :
    let s := withWords [(0x100, 1), (0x102, 1), (0x104, 0), (0x106, 5), (0x108, 0xFFFF)]
      { inState .playing with
        clock := { state := .playing, expected := 5, lineInProgress := true }
        mem := writeWord [] 0x40022 5
        ring := { base := 0x40000, nslots := 16, fetch := some { slot := 0, count := 17 }, buffer := 5 :: List.replicate 16 0 }
        arb := { owner := some (.lineFetch 0 0x40022 true) } }
    s.rst = false ∧ s.arb.waiting = none ∧ s.arb.owner = some (.lineFetch 0 0x40022 true) ∧
    s.ring.fetch = some { slot := 0, count := 17 } ∧ s.ring.buffer.length = 17 ∧ s.clock.state = .playing ∧
    s.ring.buffer.foldl (· + ·) 0 = readWord s.mem 0x40022 ∧ s.ring.buffer.getD 0 0 = s.clock.expected ∧
    s.shadow.sequential = false ∧ s.cue.flagA = false ∧ s.cueNat .a 0 = 1 ∧ s.cueNat .a 1 = 1 ∧ s.cueNat .a 2 = 0 ∧
    s.cueNat .b 0 = 0 ∧ agrees s.clock.expected.toNat (s.cueNat .a 3) (s.cueNat .a 4) = true := by
  decide +kernel

/-- For Obligations.command_argument_is_snooped_or_read. -/
theorem witness_command_argument :
    let s := fun code => owning .argRead { inState .idle with
      mem := writeWord [] 2 3, shadow := { held := some ((inState .idle).commandWrite code none first) } }
    (inState .held).commandOpen first ∧ (s 1).rst = false ∧ (s 1).arb.owner = some .argRead ∧ (s 1).arb.waiting = none ∧
    (s 1).clock.state = .idle ∧ readWord (s 1).mem ((s 1).pageBase + offArg) = 3 ∧
    (∀ code ∈ [0, 1, 9, 10, 255], ((inState .idle).commandWrite code none first).code = code) := by
  simp only [State.commandOpen, State.portOpen, State.portIdle, State.noRequest, State.noBusCue]
  decide +kernel

/-- For Obligations.command_write_in_idle_is_held. -/
theorem witness_command_write_in_idle :
    let s := owning (.statusWord 0x010 0) (inState .idle)
    let p := s.commandWrite 9 none first
    s.rst = false ∧ s.arb.waiting = none ∧ s.shadow.held = none ∧ s.clock.state = .idle ∧
    s.cycleOf (.cueClear 0 first none) = some (0, p) ∧ p.isWrite = true ∧ p.addr = s.pageBase := by
  decide +kernel

/-- For Obligations.refused_command_changes_no_state. -/
theorem witness_refused_command :
    (inState .loading).commandOpen first ∧ (inState .held).commandOpen first ∧
    ((Instr.load 0 first none, 1, Command.load) ∈ [(Instr.load 0 first none, 1, Command.load)]) ∧
    replyByState (inState .loading).clock.state (inState .loading).clock.stepInProgress .load ≠ .accepted ∧
    (inState .held).lineHeld = false ∧ (inState .held).ring.headReady = false ∧
    ¬ (1 ≤ (inState .held).shadow.arg.toNat ∧ (inState .held).shadow.arg.toNat ≤ 3) ∧
    (Instr.unknownCommand 0 first .both 10).wellFormed = true := by
  simp only [State.commandOpen, State.portOpen, State.portIdle, State.noRequest, State.noBusCue]
  decide +kernel

/-- For Obligations.load_and_unload_leave_ready. -/
theorem witness_load_and_unload :
    (inState .ready).commandOpen first ∧ (inState .ready).clock.state = .ready := by
  simp only [State.commandOpen, State.portOpen, State.portIdle, State.noRequest, State.noBusCue]
  decide +kernel

/-- For Obligations.start_takes_the_first_due. -/
theorem witness_start :
    (inState .ready).commandOpen first ∧ (inState .ready).clock.state = .ready ∧
    (inState .ready).ring.headReady = false ∧ (withSlot 0 { state := .ready } (inState .ready)).commandOpen first ∧
    (withSlot 0 { state := .ready } (inState .ready)).ring.headReady = true := by
  simp only [State.commandOpen, State.portOpen, State.portIdle, State.noRequest, State.noBusCue]
  decide +kernel

/-- For Obligations.hold_is_taken_or_waits_for_the_boundary. -/
theorem witness_hold :
    let s := { inState .playing with clock := { state := .playing, lineInProgress := true } }
    (inState .starved).commandOpen first ∧ (inState .playing).commandOpen first ∧ s.commandOpen first ∧
    (inState .starved).clock.state = .starved ∧ (inState .playing).clock.lineInProgress = false ∧
    s.clock.state = .playing ∧ s.clock.lineInProgress = true := by
  simp only [State.commandOpen, State.portOpen, State.portIdle, State.noRequest, State.noBusCue]
  decide +kernel

/-- For Obligations.resume_takes_a_due_at_once and Obligations.step_decodes_or_fetches_one_line. -/
theorem witness_resume_and_step :
    let held := { inState .held with clock := { state := .held, lineInProgress := true } }
    let head := withSlot 0 { state := .ready } (inState .held)
    held.commandOpen first ∧ held.clock.state = .held ∧ held.clock.stepInProgress = false ∧ held.lineHeld = true ∧
    head.commandOpen first ∧ head.clock.stepInProgress = false ∧ head.lineHeld = false ∧ head.ring.headReady = true ∧
    (inState .held).commandOpen first ∧ (inState .held).lineHeld = false ∧ (inState .held).ring.headReady = false := by
  simp only [State.commandOpen, State.portOpen, State.portIdle, State.noRequest, State.noBusCue]
  decide +kernel

/-- For Obligations.stop_and_starvation_enter_stopping. -/
theorem witness_stop_and_starvation :
    let s := { inState .starved with clock := { state := .starved, starveTimer := some 5 } }
    (∀ p ∈ [Playback.playing, .starved, .held, .ending], (inState p).commandOpen first ∧ (inState p).clock.state = p) ∧
    s.rst = false ∧ s.clock.state = .starved ∧ s.clock.starveTimer = some 5 ∧ 5 ≤ s.at 5 := by
  simp only [State.commandOpen, State.portOpen, State.portIdle, State.noRequest, State.noBusCue]
  decide +kernel

/-- For Obligations.silence_cuts_every_struck_key. -/
theorem witness_silence :
    ∀ p ∈ [Playback.ready, .playing, .starved, .held, .ending, .stopping], (inState p).commandOpen first ∧ (inState p).clock.state ≠ .loading := by
  simp only [State.commandOpen, State.portOpen, State.portIdle, State.noRequest, State.noBusCue]
  decide +kernel

/-- For Obligations.ring_write_fills_or_tears_a_line. -/
theorem witness_ring_write :
    let free := withSlot 15 {} (inState .ready)
    let filling := withSlot 15 { state := .filling, written := [0, 1, 16] } (inState .ready)
    free.portOpen first ∧ free.noBusCue ∧ free.classify (2 * (0x2010E : BitVec 20).toNat) = .ring 15 0 ∧
    free.classify (2 * (0x2011E : BitVec 20).toNat) = .ring 15 16 ∧ free.classify (2 * (0x2011F : BitVec 20).toNat) = .ring 15 17 ∧
    free.classify (2 * (0x20120 : BitVec 20).toNat) = .ordinary ∧ (free.ring.slots.get 15).state = .free ∧
    (free.ring.slots.get 15).written = [] ∧ filling.portOpen first ∧ filling.noBusCue ∧
    filling.classify (2 * (0x2011F : BitVec 20).toNat) = .ring 15 17 ∧ (filling.ring.slots.get 15).state = .filling ∧
    2 ∉ (filling.ring.slots.get 15).written ∧ 16 ∈ (filling.ring.slots.get 15).written ∧
    (filling.ring.slots.get 15).written.Pairwise (· < ·) := by
  simp only [State.portOpen, State.portIdle, State.noRequest, State.noBusCue]
  decide +kernel

/-- For Obligations.ring_write_completes_a_line. -/
theorem witness_ring_write_completes :
    let s := fun p => withSlot 0 { state := .filling, written := List.range 17 } (inState p)
    (∀ p ∈ [Playback.ready, .starved], (s p).portOpen first ∧ (s p).noBusCue ∧
      (s p).classify (2 * (0x20011 : BitVec 20).toNat) = .ring 0 17 ∧ ((s p).ring.slots.get 0).state = .filling ∧
      (List.range 17).all (fun w => decide (w ∈ ((s p).ring.slots.get 0).written)) = true) ∧
    (s .ready).clock.state ≠ .starved ∧ (s .starved).ring.head = 0 ∧ (s .starved).clock.state = .starved := by
  simp only [State.portOpen, State.portIdle, State.noRequest, State.noBusCue]
  decide +kernel

/-- For Obligations.ring_write_to_a_held_slot_is_withheld. -/
theorem witness_ring_write_withheld :
    let s := fun st noted => owning .argRead (withSlot 3 { state := st, overrunNoted := noted } (inState .playing))
    ∀ st ∈ [SlotState.ready, .current], ∀ noted ∈ [true, false], (s st noted).rst = false ∧
      (s st noted).arb.waiting = none ∧ (s st noted).shadow.held = none ∧ (s st noted).noBusCue ∧
      (s st noted).classify (2 * (0x20036 : BitVec 20).toNat) = .ring 3 0 ∧
      (s st noted).classify (2 * (0x20047 : BitVec 20).toNat) = .ring 3 17 ∧
      ((s st noted).ring.slots.get 3).state = st ∧ ((s st noted).ring.slots.get 3).overrunNoted = noted := by
  simp only [State.noBusCue]
  decide +kernel

/-- For Obligations.line_due_fetches_starves_or_waits. -/
theorem witness_line_due :
    let s := fun b slot => { withSlot 0 { state := slot } (inState .playing) with
      clock := { state := .playing, nextDue := some 70, lineInProgress := b } }
    (∀ b ∈ [true, false], ∀ slot ∈ [SlotState.free, .ready], (s b slot).rst = false ∧ (s b slot).clock.state = .playing ∧
      (s b slot).clock.nextDue = some 70 ∧ 70 ≤ (s b slot).at 70 ∧ (s b slot).clock.lineInProgress = b) ∧
    (s false .ready).ring.headReady = true ∧ (s false .free).ring.headReady = false := by
  decide +kernel

/-- For Obligations.fetched_line_is_discarded_or_accepted. -/
theorem witness_fetched_line :
    let s := fun (expected : Nat) buffer (check : Nat) => { inState .playing with
      clock := { state := .playing, expected := toWord expected, lineInProgress := true, lineDue := some 9 }
      mem := writeWord [] 0x40022 (toWord check)
      ring := { base := 0x40000, nslots := 16, slots := (Bank.replicate 128 ({} : Slot)).set 1 { state := .ready }
                fetch := some { slot := 0, count := 17 }, buffer := buffer }
      arb := { owner := some (.lineFetch 0 0x40022 true) } }
    let line : List Word := 5 :: List.replicate 16 0
    (∀ x ∈ [(5, 6), (4, 5), (5, 5)], (s x.1 line x.2).rst = false ∧ (s x.1 line x.2).arb.waiting = none ∧
      (s x.1 line x.2).arb.owner = some (.lineFetch 0 0x40022 true) ∧
      (s x.1 line x.2).ring.fetch = some { slot := 0, count := 17 } ∧ (s x.1 line x.2).ring.buffer.length = 17 ∧
      (s x.1 line x.2).clock.state = .playing ∧ (s x.1 line x.2).clock.lineDue = some 9 ∧
      ((s x.1 line x.2).ring.slots.get ((s x.1 line x.2).ring.after (s x.1 line x.2).ring.head)).state = .ready ∧
      (s x.1 line x.2).ring.after (s x.1 line x.2).ring.head ≠ (s x.1 line x.2).ring.head ∧
      (s x.1 line x.2).cueNat .a 0 ≠ 1 ∧ (s x.1 line x.2).cueNat .b 0 ≠ 1) ∧
    line.foldl (· + ·) 0 ≠ readWord (s 5 line 6).mem 0x40022 ∧ line.foldl (· + ·) 0 = readWord (s 4 line 5).mem 0x40022 ∧
    line.getD 0 0 ≠ (s 4 line 5).clock.expected ∧ line.getD 0 0 = (s 5 line 5).clock.expected := by
  decide +kernel

/-- For Obligations.fetched_line_is_discarded_or_accepted. -/
theorem witness_fetched_word :
    let s := owning (.lineFetch 0 0x40020 true)
      { inState .playing with ring := { fetch := some { slot := 0, count := 16 }, buffer := List.replicate 16 1 } }
    s.rst = false ∧ s.arb.waiting = none ∧ s.arb.owner = some (.lineFetch 0 0x40020 true) ∧
    s.ring.fetch = some { slot := 0, count := 16 } ∧
    (owning (.lineFetch 0 0x40020 false) (inState .stopping)).arb.owner = some (.lineFetch 0 0x40020 false) := by
  decide +kernel

/-- For Obligations.stage_one_follows_the_edge. -/
theorem witness_stage_one :
    let s := fun (shift : Int) (persist : Nat) (cells : Word) (limit : Nat) => { inState .playing with
      track := { decode := some {}, edgeNominal := 5, shift := shift, trackPersist := persist, paperLimit := limit }
      ring := { buffer := 0 :: cells :: List.replicate 16 0xFFFF } }
    (s 0 1 0x001F 1).rst = false ∧ (s 0 1 0x001F 1).track.decode = some {} ∧ ({} : Decode).stage = 1 ∧
    (s 0 1 0x001F 1).ring.edge = some 5 ∧ (s 0 1 0x1FFF 1).ring.edge = some 13 ∧
    (∀ x ∈ [(1, 0x1FFF, 8), (1, 0x3FFF, 9), (2, 0x3FFF, 9), (1, 0x0000, -5)],
      (s 0 x.1 (toWord x.2.1) 1).ring.edge = some (5 + x.2.2 : Int).toNat ∧ x.2.2 ≠ (s 0 x.1 (toWord x.2.1) 1).track.shift) ∧
    (s 0 1 0xFFFF 1).ring.edge = none ∧ (s 0 1 0xFFFF 1).track.paperLimit ≤ (s 0 1 0xFFFF 1).track.noEdge + 1 ∧
    (s 0 1 0xFFFF 2).ring.edge = none ∧ (s 0 1 0xFFFF 2).track.noEdge + 1 < (s 0 1 0xFFFF 2).track.paperLimit := by
  decide +kernel

/-- For Obligations.stages_two_and_three_confirm_and_hand_over. -/
theorem witness_stages_two_and_three :
    let s := fun stage reached => { withWords [(0x08E, 100), (0x0A6, 20)] (inState .playing) with
      clock := { state := .playing, lineDue := some 7, lineInProgress := true }
      track := { decode := some { stage := stage, reached := reached, opened := [0, 1], closed := [2] }
                 rows := (Bank.replicate 112 ({} : TrackRow)).set 3 { isOpen := true }
                 map := ((((Bank.replicate 112 ({} : MapEntry)).set 0 { fn := 108 }).set 1 { fn := 107 }).set 2 { fn := 88 }).set 3
                   { fn := 89 } } }
    (∀ n ∈ [2, 3, 4, 5, 7, 8], (s n 0).rst = false ∧
      (s n 0).track.decode = some { stage := n, opened := [0, 1], closed := [2] } ∧ (s n 0).clock.lineDue = some 7 ∧
      (s n 0).sched.length ≤ 40) ∧
    (s 4 0).track.fnOpen 89 = true ∧ ((s 4 0).pedals.pedal .damper).target ≠ 15 ∧
    (s 4 0).at 8 < 7 + 100 * ((s 4 0).shadow.lookahead - (s 4 0).shadow.pedalLead .damper) ∧
    (s 5 87).at 8 < 7 + 100 * ((s 5 87).shadow.lookahead - (s 5 87).shadow.releaseLead) ∧
    ((s 5 87).track.map.get 2).fn = (87 : Key).val + 1 ∧ ((s 5 87).key 87).state ≠ .locked ∧
    ((s 7 0).track.map.get 0).fn = 108 ∧ ((s 7 0).track.map.get 1).fn = 107 := by
  decide +kernel

/-- For Obligations.note_on_raises_the_serial_and_makes_a_strike. -/
theorem witness_note_on :
    let s := fun st muted => withWords [(0x08E, 100)] (withKey 87 { state := st } { inState .playing with
      clock := { state := .playing, lineDue := some 7 }
      track := { decode := some { stage := 6, reached := 87, opened := [0], muted := muted }
                 map := (Bank.replicate 112 ({} : MapEntry)).set 0 { fn := 88 } } })
    (∀ st ∈ [KeyState.rest, .locked], ∀ m ∈ [true, false], (s st m).rst = false ∧
      (s st m).track.decode = some { stage := 6, reached := 87, opened := [0], muted := m } ∧
      (s st m).clock.lineDue = some 7 ∧ ((s st m).key 87).state = st ∧ (s st m).sched.length ≤ 40 ∧
      ((s st m).track.map.get 0).fn = (87 : Key).val + 1) ∧
    (s .rest false).at 8 <
      7 + 100 * ((s .rest false).shadow.lookahead - ((s .rest false).curveRow ((s .rest false).expr.driveLevel 87)).lead) := by
  decide +kernel

/-- For Obligations.line_boundary_frees_the_slot_and_chooses. -/
theorem witness_line_boundary :
    let s := fun hold waiting => { withSlot 1 { state := .ready } (inState .playing) with
      clock := { state := .playing, lineInProgress := true, pendingHold := hold, waitingDue := waiting }
      track := { decode := some { stage := 9 } } }
    (∀ h ∈ [none, some Cause.command], ∀ w ∈ [none, some (3 : Nat)], (s h w).rst = false ∧
      (s h w).track.decode = some { stage := 9 } ∧ (s h w).clock.stepInProgress = false ∧
      (s h w).track.pendingHold = none ∧ (s h w).clock.pendingHold = h ∧ (s h w).clock.waitingDue = w ∧
      (s h w).clock.state = .playing ∧ (s h w).ring.after (s h w).ring.head ≠ (s h w).ring.head ∧
      ((s h w).ring.slots.get ((s h w).ring.after (s h w).ring.head)).state = .ready) ∧
    ({ stage := 9 } : Decode).muted = false ∧ ({ stage := 9 } : Decode).endMark = false ∧
    ({ stage := 9, endMark := true } : Decode).endMark = true ∧ ({ stage := 9, muted := true } : Decode).muted = true := by
  decide +kernel

/-- For Obligations.step_ends_at_its_boundary. -/
theorem witness_step_ends :
    let s := fun hold => { inState .held with
      clock := { state := .held, lineInProgress := true, stepInProgress := true }
      track := { decode := some { stage := 9 }, pendingHold := hold } }
    ∀ h ∈ [none, some TrackHold.tracking, some TrackHold.paper], (s h).rst = false ∧
      (s h).track.decode = some { stage := 9 } ∧ ({ stage := 9 } : Decode).stage = 9 ∧
      (s h).clock.stepInProgress = true ∧ (s h).clock.state = .held ∧ ({ stage := 9 } : Decode).muted = false ∧
      ({ stage := 9 } : Decode).endMark = false ∧ (s h).track.pendingHold = h := by
  decide +kernel

/-- For Obligations.expression_step_moves_each_level. -/
theorem witness_expression_step :
    let s := { inState .playing with now := 100, clock := { state := .playing, exprCount := 9000 } }
    let r := { s with track := { decode := some { stage := 8, frozenThrough := 8 } } }
    let past := { s with track := { decode := some { stage := 7, frozenThrough := 6 } } }
    let fed := { s with ring := { fetch := some { slot := 0, count := 0, levelFrozen := true } } }
    s.rst = false ∧ s.clock.state = .playing ∧ 10000 ≤ s.clock.exprCount + (s.at 1100 - s.now) ∧
    ¬ 10000 ≤ s.clock.exprCount + (s.at 1099 - s.now) ∧ s.levelFrozen = false ∧ r.rst = false ∧
    r.track.decode = some { stage := 8, frozenThrough := 8 } ∧ r.levelFrozen = true ∧ past.levelFrozen = false ∧
    past.track.decode = some { stage := 7, frozenThrough := 6 } ∧ fed.rst = false ∧ fed.levelFrozen = true ∧
    fed.ring.fetch = some { slot := 0, count := 0, levelFrozen := true } ∧ s.track.decode = none ∧ s.ring.fetch = none ∧
    s.commandOpen first ∧
    s.clock.lineInProgress = false := by
  simp only [State.commandOpen, State.portOpen, State.portIdle, State.noRequest, State.noBusCue]
  decide +kernel

/-- For Obligations.settle_row_moves_toward_the_target. -/
theorem witness_settle :
    let side : Side := { level := 0, target := 496 }
    side.swell = false ∧ side.fade = false ∧ side.level < side.target ∧ side.level ≤ 496 ∧ side.target ≤ 496 ∧
    ({ level := 496, target := 0 } : Side).target < ({ level := 496, target := 0 } : Side).level := by
  decide +kernel

/-- For Obligations.ending_stopping_and_loading_complete. -/
theorem witness_ending_stopping_loading :
    let s := fun st d => { inState st with clock := { state := st, drained := d } }
    (∀ st ∈ [Playback.ending, .stopping, .loading], ∀ d ∈ [true, false], (s st d).rst = false ∧ (s st d).clock.state = st ∧
      (s st d).clock.drained = d ∧ (s st d).sched = [] ∧ (s st d).fire.queue = [] ∧ (s st d).keysQuiet = true ∧
      (s st d).pedals.allSettled = true ∧ (s st d).track.decode = none ∧ (s st d).shadow.loaded = true) := by
  decide +kernel

/-- For Obligations.setup_load_word_is_checked. -/
theorem witness_setup_load_word :
    let s := fun off (w : Nat) => owning (.setupLoad off true) { inState .loading with mem := writeWord [] off (toWord w), shadow := {} }
    (∀ x ∈ [(0x0E0, 25), (0x0E0, 24), (0x082, 32)], (s x.1 x.2).rst = false ∧ (s x.1 x.2).arb.waiting = none ∧
      (s x.1 x.2).arb.owner = some (.setupLoad x.1 true) ∧ readWord (s x.1 x.2).mem ((s x.1 x.2).pageBase + x.1) = toWord x.2 ∧
      (s x.1 x.2).shadow.readCount + 1 < loadOrder.length) ∧
    loadWordFault (({} : Shadow).put 0x0E0 25).word 0x0E0 = none ∧
    loadWordFault (({} : Shadow).put 0x0E0 24).word 0x0E0 = some 0x0E0 ∧
    loadWordFault (({} : Shadow).put 0x082 32).word 0x082 = some 0x080 := by
  decide +kernel

/-- For Obligations.due_entry_is_dispatched. -/
theorem witness_due_entry :
    let x : Waiting := { key := 9, due := 40, level := 60, serial := 9, tag := 8, expiry := 900 }
    let s := fun act (r : KeyRec) motion link => withWords [(0x09E, 1)] (withKey 9 r { inState .playing with
      sched := [{ act := act, due := 50, tag := 1 }, { act := .release 9 1, due := 51, tag := 1 }]
      fire := { queue := [x] }
      pedals := { link := link, recs := (Bank.replicate 3 ({} : PedalRec)).set 1 { motion := motion } } })
    let busy : Link := .awaiting { pedal := .damper, depth := 3 } 900
    (∀ act ∈ [Action.release 9 1, .move .soft 15, .strike 9 60 1],
      ∀ r ∈ [({ state := .holding, note := some 1 } : KeyRec), { state := .firing, timer := some 9, nextNote := some 1 }, {},
        { heat := 65535 }, { timer := some 9 }, { state := .releasing, timer := some 9, note := some 1 }, { state := .locked }],
      (s act r .moving busy).rst = false ∧ (s act r .moving busy).dispatches = true ∧
      (s act r .moving busy).sched = { act := act, due := 50, tag := 1 } :: (s act r .moving busy).sched.tail ∧
      50 ≤ (s act r .moving busy).at 50 ∧
      (∀ y ∈ (s act r .moving busy).sched.tail, (s act r .moving busy).at 50 < y.due) ∧ (s act r .moving busy).key 9 = r ∧
      (s act r .moving busy).fire.count < (s act r .moving busy).shadow.fireBudget ∧
      (s act r .moving busy).fire.queue.filter (fun y => decide (y.key ≠ 9)) = []) ∧
    (∀ m ∈ [Motion.fault, .moving], ∀ l ∈ [Link.idle, busy],
      ((s (.move .soft 15) {} m l).pedals.pedal .soft).motion = m ∧ (s (.move .soft 15) {} m l).pedals.link = l ∧
      choosePedal (s (.move .soft 15) {} m l).pedals = none) ∧
    50 + 100 * (s (.move .soft 15) {} .moving busy).shadow.lateLimit ≤ (s (.move .soft 15) {} .moving busy).at 50 ∧
    ({} : KeyRec).free = true ∧ ({ timer := some 9 } : KeyRec).free = false ∧ ({} : Heat).hot ≤ 65535 ∧ 0 < ({} : Heat).hot ∧
    [x, { x with key := 10 }].Pairwise
      (fun a b => decide (a.due < b.due ∨ a.due = b.due ∧ a.key < b.key) = true) := by
  decide +kernel

/-- For Obligations.late_strike_is_dropped. -/
theorem witness_late_strike :
    let x : Waiting := { key := 3, due := 1, level := 60, serial := 1, tag := 1, expiry := 40 }
    let s := fun st => withKey 3 { state := st } { inState .playing with fire := { queue := [x] } }
    ∀ st ∈ [KeyState.rest, .releasing, .firing, .holding], (s st).rst = false ∧ waitingOf 3 (s st).fire.queue = some x ∧
      x.expiry ≤ (s st).at 40 ∧ ((s st).key 3).state = st := by
  decide +kernel

/-- For Obligations.pulse_end_enters_holding_or_releasing. -/
theorem witness_pulse_end :
    let x : Waiting := { key := 9, due := 40, level := 60, serial := 9, tag := 8, expiry := 900 }
    let s := fun p minHold q => withWords [(0x0A2, minHold), (0x09E, 1)] (withKey 7 { state := .firing, timer := some 100 }
      { inState p with fire := { queue := q, count := 1 } })
    (∀ p ∈ [Playback.playing, .stopping], ∀ m ∈ [0, 1], ∀ q ∈ [[], [x], [{ x with key := 7 }, x]], (s p m q).rst = false ∧
      ((s p m q).key 7).state = .firing ∧ ((s p m q).key 7).timer = some 100 ∧ 100 ≤ (s p m q).at 100 ∧
      (s p m q).clock.state = p ∧ (s p m q).shadow.minHold = m ∧ ((s p m q).key 7).heat < (s p m q).heat.warm ∧
      (s p m q).heat.warm < (s p m q).heat.hot ∧ ((s p m q).key 7).free = false ∧ ((s p m q).key 9).free = true ∧
      ((s p m q).key 9).heat < (s p m q).heat.hot ∧ 0 < (s p m q).fire.count ∧
      (s p m q).fire.count = (s p m q).shadow.fireBudget) := by
  decide +kernel

/-- For Obligations.key_timers_release_and_free_the_key. -/
theorem witness_key_timers :
    let x : Waiting := { key := 87, due := 40, level := 60, serial := 9, tag := 8, expiry := 900 }
    let s := fun st q count heat => withWords [(0x09E, 1)] (withKey 87 { state := st, timer := some 100, heat := heat }
      { inState .playing with fire := { queue := q, count := count } })
    ∀ st ∈ [KeyState.holding, .releasing, .rest], ∀ q ∈ [[], [x]], ∀ c ∈ [0, 1], ∀ h ∈ [0, 65535], (s st q c h).rst = false ∧
      ((s st q c h).key 87).timer = some 100 ∧ 100 ≤ (s st q c h).at 100 ∧ ((s st q c h).key 87).state = st ∧
      (s st q c h).fire.queue = q ∧ (s st q c h).shadow.fireBudget = 1 ∧ (s st q c h).fire.count = c ∧
      decide (((s st q c h).key 87).heat < (s st q c h).heat.hot) = decide (h = 0) := by
  decide +kernel

/-- For Obligations.heat_steps_and_kd_periods_use_the_applied_duty. -/
theorem witness_heat_and_kd :
    let s := withKey 5 { state := .holding, heat := 65535, kd := 16 } (inState .playing)
    State.reset.rst = false ∧ State.reset.heat.next ≤ State.reset.at 1000 ∧ State.reset.kdNext ≤ State.reset.at 50 ∧
    (s.key 5).state = .holding ∧ (s.key 5).kd = 16 ∧ (s.key 6).kd = 0 ∧
    (withKey 5 { heat := 100 } s).heat.hot ≤ 65535 ∧ ({} : State).rst = true := by
  decide +kernel

/-- For Obligations.held_key_is_tested_against_the_limits. -/
theorem witness_held_key :
    let s := fun heat reduced depth => { withKey 3 { state := .holding, heat := heat, reduced := reduced, note := some 1 } (inState .playing) with
      heat := { warm := 100, hot := 200, sustain := 8 }
      pedals := { recs := (Bank.replicate 3 ({} : PedalRec)).set 0 { depth := depth } } }
    (∀ h ∈ [99, 100, 199, 200], ∀ r ∈ [true, false], ∀ d ∈ [7, 8], ((s h r d).key 3).state = .holding ∧
      (s h r d).heat.warm < (s h r d).heat.hot ∧ ((s h r d).key 3).heat = h ∧ ((s h r d).key 3).reduced = r) ∧
    (s 100 false 8).sustained 3 = true ∧ (s 100 false 7).sustained 3 = false ∧ ((s 200 false 7).key 3).note = some 1 := by
  decide +kernel

/-- For Obligations.frames_are_sent_and_acknowledged. -/
theorem witness_frames_and_acknowledgements :
    let f : Frame := { pedal := .soft, depth := 15 }
    let m : Move := { depth := 0, due := 5 }
    let s := fun link w => { inState .playing with pedals := { link := link, recs := Bank.replicate 3 { waiting := w } } }
    (∀ l ∈ [Link.sending f 0 none, .sending f 0 (some 40), .awaiting f 900], ∀ w ∈ [none, some m], (s l w).rst = false ∧
      (s l w).pedals.link = l ∧ (s l w).pedals.rxBytes = []) ∧
    (0 : Nat) + 120 ≤ (s .idle none).at 120 ∧ 40 ≤ (s .idle none).at 40 ∧ choosePedal (s .idle none).pedals = none ∧
    choosePedal (s .idle (some m)).pedals = some (.damper, m) ∧ ((s .idle (some m)).pedals.pedal .soft).waiting = some m ∧
    f.depth = (15 : BitVec 4).toNat := by
  decide +kernel

/-- For Obligations.frames_are_sent_and_acknowledged. -/
theorem witness_no_waiting_move :
    ∀ p, ((inState .stopping).pedals.pedal p).waiting = none := by intro p; cases p <;> rfl

/-- For Obligations.failed_moves_are_retransferred_or_fault. -/
theorem witness_failed_moves :
    let s := fun max link => { inState .playing with pedals :=
      { maxRetries := max, link := link
        recs := ((Bank.replicate 3 ({} : PedalRec)).set 2 { travel := some 70 }).set 0 { waiting := some { depth := 1, due := 5 } } } }
    let soft : Link := .awaiting { pedal := .soft, depth := 15 } 900
    (∀ m ∈ [0, 1], (s m soft).rst = false ∧ (s m soft).pedals.rxBytes = [] ∧
      (s m soft).pedals.link = .awaiting { pedal := .soft, depth := (15 : BitVec 4).toNat } 900 ∧ 900 ≤ (s m soft).at 900 ∧
      ((s m soft).pedals.pedal .sostenuto).travel = some 70 ∧ 70 ≤ (s m soft).at 70 ∧
      (s m soft).pedals.inFlight .soft = true ∧ (s m soft).pedals.inFlight .sostenuto = false ∧ soft ≠ .idle ∧
      (s m .idle).pedals.inFlight .sostenuto = false) ∧
    ((s 1 soft).pedals.pedal .soft).retries < (s 1 soft).pedals.maxRetries ∧
    (s 0 soft).pedals.maxRetries ≤ ((s 0 soft).pedals.pedal .soft).retries := by
  decide +kernel

/-- For Obligations.arrival_sets_depth_and_sostenuto_set. -/
theorem witness_arrival :
    let s := { inState .playing with pedals :=
      { sost := [4], recs := (Bank.replicate 3 ({} : PedalRec)).set 0 { motion := .fault } } }
    s.rst = false ∧ s.pedals.rxBytes = [] ∧ (s.pedals.pedal .sostenuto).motion ≠ .fault ∧ s.awaitsSettling = false ∧
    8 ≤ (8 : BitVec 4).toNat ∧ (7 : BitVec 4).toNat < 8 ∧ s.pedals.sost ≠ [] ∧ (s.pedals.pedal .damper).motion = .fault := by
  decide +kernel

/-- For Obligations.receiver_assembles_drops_and_ignores. -/
theorem witness_receiver :
    let s := fun bytes => { inState .playing with now := 500, pedals := { rxBytes := bytes, rxEnd := 460 } }
    (∀ b ∈ [([] : List Byte), [0x21], [0x21, 0x05]], (s b).rst = false ∧ (s b).pedals.rxBytes = b) ∧
    (s [0x21]).pedals.rxBytes.length < 2 ∧ (s []).at 700 - 40 ≤ (s []).pedals.rxEnd + 200 ∧
    (s []).pedals.rxEnd + 200 < (s []).at 701 - 40 ∧ (s []).pedals.rxEnd + 200 < (s []).at 661 ∧
    ¬ (s []).pedals.rxEnd + 200 < (s []).at 660 ∧ parseFrame 0 0 0 = none ∧
    parseFrame 0x21 5 (checkByte 0x21 5) = some (.ack, .damper, (5 : BitVec 4).toNat) ∧
    parseFrame 0x32 5 (checkByte 0x32 5) = some (.nak, .soft, (5 : BitVec 4).toNat) := by
  decide +kernel

/-- For Obligations.receiver_assembles_drops_and_ignores. -/
theorem witness_no_frame_awaited :
    ∀ p depth e, (inState .playing).pedals.link ≠ .awaiting { pedal := p, depth := depth } e := by intro p depth e h; cases h

/-- For Obligations.link_frames_are_read_as_they_are_made. -/
theorem witness_link_frames :
    (15 : Nat) ≤ 15 ∧ FrameKind.ack ≠ .move ∧ (0x11 : Byte).toNat / 16 ≠ 2 ∧ (0x11 : Byte).toNat / 16 ≠ 3 ∧
    (0x11 : Byte).toNat / 16 ≠ 4 ∧ (0x20 : Byte).toNat % 16 = 0 ∧ 4 ≤ (0x24 : Byte).toNat % 16 := by
  decide +kernel

/-- For Obligations.report_words_are_written_and_committed. -/
theorem witness_report_words :
    let r : Record := { kind := .started, tag := 1, subject := 2, detail := 3 }
    let s := fun n live => owning (.reportWord (0x30000 + 8 * 15 + 2 * n) (recordWord r n) live) { inState .playing with
      report := { wr := 15, active := true, copies := some { base := 0x30000, size := 16 }
                  current := some { record := r, written := n } } }
    ∀ n ∈ [0, 2, 3], ∀ live ∈ [true, false], (s n live).rst = false ∧ (s n live).arb.waiting = none ∧
      (s n live).report.current = some { record := r, written := n } ∧
      (s n live).report.copies = some { base := 0x30000, size := 16 } ∧
      (s n live).report.request = some (.reportWord (0x30000 + 8 * (s n live).report.wr + 2 * n) (recordWord r n) true) ∧
      (s n live).arb.owner = some (.reportWord (0x30000 + 8 * 15 + 2 * n) (recordWord r n) live) := by
  decide +kernel

/-- For Obligations.status_words_are_granted_and_written. -/
theorem witness_status_words :
    let s := { inState .playing with updates := [0x004, 0x6AE] }
    s.rst = false ∧ s.arb.waiting = none ∧ s.arb.owner = none ∧ s.ring.request = none ∧ s.setupRequest = none ∧
    s.report.request = none ∧ s.updates = 0x004 :: [0x6AE] ∧
    (owning (.statusWord 0x6AE 9) s).arb.owner = some (.statusWord 0x6AE 9) := by
  decide +kernel

/-- For Obligations.pins_inhibit_and_reset. -/
theorem witness_pins :
    (inState .playing).rst = false ∧ (inState .playing).inh ≠ true ∧ (inState .playing).clock.state ≠ .idle ∧
    (inState .idle).clock.state = .idle ∧ (inState .playing).arb.waiting = none ∧
    (inState .playing).shadow.held = none ∧ ({} : State).rst = true := by
  decide +kernel

/-- For Obligations.stages_two_and_three_confirm_and_hand_over. -/
theorem witness_after_test :
    let s := fun (tag : Nat) flag => { withWords [(0x120, 1), (0x122, 1), (0x124, 1), (0x126, tag), (0x128, 0xFFFF), (0x12A, 0xFFFF)]
        (inState .playing) with
      track := { decode := some { stage := 8 } }, cue := { flagB := flag }, ring := { buffer := [9] } }
    (∀ x ∈ [(9, false), (8, false), (9, true)], (s x.1 x.2).rst = false ∧ (s x.1 x.2).track.decode = some { stage := 8 } ∧
      (s x.1 x.2).watching = true ∧ (s x.1 x.2).shadow.sequential = false ∧ (s x.1 x.2).cue.flag .b = x.2 ∧
      (s x.1 x.2).cueNat .a 0 ≠ 1 ∧ (s x.1 x.2).cueNat .b 0 = 1 ∧ (s x.1 x.2).cueNat .b 2 = 1 ∧
      (s x.1 x.2).cueNat .b 5 = 0xFFFF ∧
      agrees (s x.1 x.2).ring.lineTag.toNat ((s x.1 x.2).cueNat .b 3) ((s x.1 x.2).cueNat .b 4) = decide (x.1 = 9)) := by
  decide +kernel

/-- For Obligations.note_on_raises_the_serial_and_makes_a_strike. -/
theorem witness_drive_level :
    let side : Side := { level := 496, accent := true }
    let c : ExprCopies := { exprBase := 0, splitKey := 45, curve := Bank.replicate 32 {} }
    let m : Sample := { normal := Bank.replicate 32 127, softMap := Bank.replicate 32 1, accentBass := 0, accentTreble := 31,
                        voices := Bank.replicate 88 { trim := -16, side := .auto } }
    let e : Expression := { treble := side, copies := some c, sample := some m }
    e.copies = some c ∧ e.sample = some m ∧ side.level / 16 = (31 : Fin 32).val ∧ c.splitKey ≤ (44 : Key).val + 1 ∧
    ¬ c.splitKey ≤ (43 : Key).val + 1 ∧ e.driveLevel 44 = 127 ∧ ({ e with soft := true } : Expression).driveLevel 43 = 1 ∧
    e.driveLevel 43 = 111 := by
  decide +kernel

/-- For Obligations.note_on_raises_the_serial_and_makes_a_strike. -/
theorem witness_capacity :
    let strike : Entry := { act := .strike 3 60 1, due := 900, tag := 1 }
    let off : Entry := { act := .release 3 1, due := 800, tag := 1 }
    let pedal : Entry := { act := .move .soft 15, due := 800, tag := 1 }
    let s := fun l => { inState .playing with sched := l }
    (s (List.replicate 127 off ++ [strike])).sched.length = 128 ∧ (s (List.replicate 128 off)).sched.length = 128 ∧
    (s []).now < strike.due ∧ off.due ≤ ({ s [] with now := 800 } : State).now ∧ isMoveOf .soft pedal = true ∧
    ((s [pedal]).sched.any (isMoveOf .soft)) = true ∧ ((s (List.replicate 128 off)).sched.any (isMoveOf .soft)) = false ∧
    ((s (List.replicate 128 off)).sched.all (fun x => !isStrike x)) = true ∧ isStrike strike = true := by
  decide +kernel

/-- For Obligations.setup_load_word_is_checked. -/
theorem witness_setup_load_last_word :
    let s := owning (.setupLoad 0x57E true) { inState .loading with
      shadow := (withWords [(0x082, 4), (0x084, 16), (0x088, 3), (0x08A, 16), (0x08E, 500), (0x0BE, 100), (0x0C0, 200), (0x10A, 0xFFFF),
        (0x12A, 0xFFFF), (0x57C, 50)] { inState .loading with shadow := { readCount := loadOrder.length - 1 } }).shadow
      mem := writeWord [] 0x57E 100 }
    let sh : Shadow := { s.shadow.put 0x57E 100 with readCount := loadOrder.length }
    s.rst = false ∧ s.arb.waiting = none ∧ s.arb.owner = some (.setupLoad 0x57E true) ∧
    readWord s.mem (s.pageBase + 0x57E) = 100 ∧ loadOrder.length ≤ s.shadow.readCount + 1 ∧
    loadWordFault sh.word 0x57E = none ∧ loadConditionFault s.pageBase sh = none ∧
    loadConditionFault s.pageBase ((sh.put 0x082 31).put 0x080 0xFFFC) = some 0x080 ∧ 0 < sh.ringSlots ∧ 0 < sh.rptSize ∧
    0x200000 < ((sh.put 0x082 31).put 0x080 0xFFFC).ringBase + 36 * sh.ringSlots := by
  decide +kernel

/-- For Obligations.arrival_sets_depth_and_sostenuto_set. -/
theorem witness_arrival_while_settling :
    let s := fun link => { inState .stopping with pedals := { link := link } }
    let busy : Link := .awaiting { pedal := .damper, depth := 3 } 900
    ∀ l ∈ [Link.idle, busy], (s l).rst = false ∧ (s l).pedals.rxBytes = [] ∧ (s l).awaitsSettling = true ∧
      ((s l).pedals.pedal .soft).motion ≠ .fault ∧ (1 : BitVec 4).toNat ≠ 0 ∧ ((s l).pedals.pedal .soft).waiting = none ∧
      (s l).pedals.inFlight .soft = false ∧ (s l).pedals.link = l ∧ choosePedal (s l).pedals = none := by
  decide +kernel

/-- For Obligations.report_words_are_written_and_committed. -/
theorem witness_report_queue :
    let r : Record := { kind := .started, tag := 1, subject := 2, detail := 3 }
    let ring : ReportRing := { base := 0x30000, size := 16 }
    let w := fun read active q => ({ wr := 15, readIndex := read, active := active, copies := some ring, queue := q } : Report)
    (∀ read ∈ [0, 1, 15], ∀ active ∈ [true, false], ∀ q ∈ [[], [r], [r, r]],
      (w read active q).copies = some ring ∧ (w read active q).current = none ∧ (w read active q).wr < ring.size ∧
      (w read active q).readIndex < ring.size ∧ (w read active q).active = active ∧ (w read active q).queue = q) ∧
    ((15 + 1) % ring.size = 0 ∧ (15 + 1) % ring.size ≠ 1) ∧ ¬ (15 + ring.size - 0) % ring.size + 0 + 0 < ring.size - 1 ∧
    (15 + ring.size - 1) % ring.size + 0 + 0 < ring.size - 1 := by
  decide +kernel

/-- A step from PLAYING with an empty queue, with the premises of Obligations.every_step_keeps_…: the queue's form, the schedule, the set, the count. -/
theorem witness_invariants :
    step (inState .playing) = .next (inState .playing) ∧ (inState .playing).mem = [] ∧ scheduleOk (inState .playing).sched ∧
    (inState .playing).sostenutoOk ∧ (inState .playing).firingOk := by
  refine ⟨rfl, rfl, ⟨List.Pairwise.nil, by decide, fun p => by cases p <;> decide⟩, fun _ => rfl, by
    unfold State.firingOk; decide +kernel⟩

theorem witness_memory_invariant : (inState .playing).memOk := by
  unfold State.memOk; decide

theorem witness_outputs_invariant : (inState .playing).outputsOk := by
  unfold State.outputsOk; decide +kernel

theorem witness_locks_invariant : (inState .playing).locksOk := by
  unfold State.locksOk; decide +kernel

end Sys2Proof.Tests
end

section
/-! PROOF. A ring write that passes (R4 to R8): the written-word set, what the write makes of its slot, and the row that
carries it. -/

namespace Sys2Proof.Machine

/-! ## The written-word set (R4) -/

/-- The set gains the word and nothing else. -/
@[simp] theorem mem_insertWord (w x : Nat) (l : List Nat) : x ∈ insertWord w l ↔ x = w ∨ x ∈ l := by
  induction l with
  | nil => simp [insertWord]
  | cons a l ih =>
    rw [insertWord]
    split
    · simp [ih, or_left_comm]
    · split
      case isTrue haw => simp [haw]
      case isFalse => simp

/-- A word that a rising set holds already leaves the set as it is. -/
theorem insertWord_of_mem {w : Nat} {l : List Nat} (hl : l.Pairwise (· < ·)) (hw : w ∈ l) : insertWord w l = l := by
  induction l with
  | nil => simp at hw
  | cons a l ih =>
    obtain ⟨ha, hl⟩ := List.pairwise_cons.mp hl
    rcases List.mem_cons.mp hw with rfl | hw
    · simp [insertWord]
    · simp [insertWord, ha w hw, ih hl hw]

/-- A set that lacks one of the words 0 to 16 is not complete (R6). -/
theorem Slot.complete_eq_false {r : Slot} {x : Nat} (hx : x ≤ 16) (h : x ∉ r.written) : r.complete = false := by
  rw [Slot.complete, List.all_eq_false]
  exact ⟨x, by simp; omega, by simpa using h⟩

/-! ## What a ring write does to its slot (R4, R7) -/

/-- A write to a FREE or FILLING slot passes. -/
theorem ringWrite_passes {i : Fin 128} {s : State}
    (h : (s.ring.slots.get i).state = .free ∨ (s.ring.slots.get i).state = .filling) (w : Nat) (c : ProcCycle) :
    ringWrite i w c s = fillSlot i w (passWrite c s) := by
  rcases h with h | h <;> simp [ringWrite, h]

/-- Any word but the last joins the slot's written-word set (R4, R5). -/
theorem fillSlot_joins {w : Nat} (h : w ≤ 16) (i : Fin 128) (s : State) :
    fillSlot i w s = updSlot i (fun r => { r with state := .filling, written := insertWord w r.written }) s :=
  if_pos (by omega)

/-- The last word tears the line of a slot that is FREE or lacks a word (R7). -/
theorem fillSlot_tears {i : Fin 128} {s : State}
    (h : (s.ring.slots.get i).state = .free ∨
      (s.ring.slots.get i).state = .filling ∧ ∃ x, x ≤ 16 ∧ x ∉ (s.ring.slots.get i).written) :
    fillSlot i 17 s = tearSlot i s := by
  have hc : ¬ ((s.ring.slots.get i).state = .filling ∧ (s.ring.slots.get i).complete = true) := by
    rcases h with h | ⟨-, x, hx, hxw⟩
    · simp [h]
    · simp [Slot.complete_eq_false hx hxw]
  rw [fillSlot, if_neg (by decide), if_neg hc]

/-- Word 0 to 16 written to a FREE or FILLING slot: the effect is the pass and the slot's new record (R4, R5). -/
theorem ringWrite_joins {i : Fin 128} {w : Nat} {y : State} (hw : w ≤ 16)
    (h : (y.ring.slots.get i).state = .free ∨ (y.ring.slots.get i).state = .filling) (c : ProcCycle) :
    ringWrite i w c y =
      updSlot i (fun r => { r with state := .filling, written := insertWord w r.written }) (passWrite c y) := by
  rw [ringWrite_passes h, fillSlot_joins hw]

/-- Word 17 written to a slot that is FREE or lacks a word: the effect is the pass and the tear (R7). -/
theorem ringWrite_tears {i : Fin 128} {y : State}
    (h : (y.ring.slots.get i).state = .free ∨
      (y.ring.slots.get i).state = .filling ∧ ∃ x, x ≤ 16 ∧ x ∉ (y.ring.slots.get i).written) (c : ProcCycle) :
    ringWrite i 17 c y = tearSlot i (passWrite c y) := by
  have hs : (y.ring.slots.get i).state = .free ∨ (y.ring.slots.get i).state = .filling := h.imp_right And.left
  rw [ringWrite_passes hs, fillSlot_tears (by simpa using h)]

/-- The report of a torn line carries the slot and the number of words that were written (R7). -/
theorem tearSlot_raised {s y : State} (hr : y.report = s.report) (hl : y.track.lastTag = s.track.lastTag) (i : Fin 128) :
    s.raised (tearSlot i y) .torn (slotWord i) (toWord (y.ring.slots.get i).written.length) :=
  raise_raised (by simpa using hr) (by simpa using hl)

/-- A torn line moves on of the Report Writer only what a record raised moves on. -/
theorem tearSlot_report_parts (i : Fin 128) (s : State) :
    (tearSlot i s).report =
      { s.report with
        queue := (tearSlot i s).report.queue, current := (tearSlot i s).report.current
        lost := (tearSlot i s).report.lost } := by
  apply report_ext <;> simp [tearSlot]

/-! ## The row (R162) -/

/-- A cycle in the roll ring window is no command, so it is not held (R169). -/
theorem holdsCommand_ring {s : State} {c : ProcCycle} {i : Fin 128} {w : Nat} (h : s.classify c.addr = .ring i w) :
    s.holdsCommand c = false := by
  simp [State.holdsCommand, h]

/-- A ring write that arrives at the open port, unseen by any BUS cue, is its effect on the slot it addresses. -/
theorem cycleRow_ringWrite {s : State} {t : Instant} {c : ProcCycle} {i : Fin 128} {w : Nat} (hw : c.isWrite = true)
    (hp : s.portOpen c.order) (hb : s.noBusCue) (hc : s.classify c.addr = .ring i w) :
    ∃ y, Seen s t y ∧ cycleRow t c s = .next (drivePins (ringWrite i w c y)) := by
  obtain ⟨y, hy, -, hrow⟩ := cycleRow_seen (t := t) hp
  have hcy : y.classify c.addr = .ring i w := (seen_classify hy _).trans hc
  have heffect : writeEffect c y = ringWrite i w c y := by simp [writeEffect, hcy]
  have hby : y.noBusCue := seen_noBusCue hy hb
  have hbw : (writeEffect c y).noBusCue := (noBusCue_congr (by simp [heffect])).mpr hby
  refine ⟨y, hy, ?_⟩
  rw [hrow, completeCycle_plain c hw (holdsCommand_ring hcy) hby hbw, heffect]

/-- The frame of a ring write that passes: memory, the ring, and of the report what a record raised moves on. -/
theorem frame_of_ring_pass {s y x : State} {t : Instant} {ring : Ring} (c : ProcCycle) (hy : Seen s t y)
    (hx : x = { passWrite c y with ring := ring, report := x.report, updates := x.updates })
    (hr : x.report = { s.report with queue := x.report.queue, current := x.report.current, lost := x.report.lost }) :
    drivePins x = { s.withBook (drivePins x) with mem := writeLanes s.mem c.addr c.lanes c.data, ring := ring } := by
  generalize x.report = r at hx hr
  generalize x.updates = u at hx
  subst hx
  rw [hy]
  apply state_ext
  case report => exact hr
  all_goals rfl

end Sys2Proof.Machine

open Sys2Proof Sys2Proof.Machine

/-- Settles O25: the write passes at the open port, and its word joins the slot's set (`ringWrite_joins`) or, as the last
one, tears the line (`ringWrite_tears`). -/
theorem ringWriteFillsOrTearsALine : Obligations.ring_write_fills_or_tears_a_line := by
  intro t o wa lanes data s i w hp hb hc
  obtain ⟨y, hy, hrow⟩ := cycleRow_ringWrite (t := t) (c := ⟨true, wa, lanes, data, o⟩) rfl hp hb hc
  have hexec := (exec_cycleOf (c := .ringWrite t o wa lanes data) rfl).trans hrow
  have hring : y.ring = s.ring := by simp [seen_parts hy]
  have htag : y.track.lastTag = s.track.lastTag := by simp [seen_parts hy]
  have hreport : y.report = s.report := by simp [seen_parts hy]
  rw [← hring]
  refine ⟨fun hw hs => ?joins, ?tears⟩
  case joins =>
    rw [ringWrite_joins hw hs] at hexec
    refine ⟨_, insertWord w (y.ring.slots.get i).written, hexec, fun x => mem_insertWord w x _, ?_, ?_, ?_, ?_⟩
    · intro _ hempty
      simp [hempty, insertWord]
    · exact fun hmem hsorted => insertWord_of_mem hsorted hmem
    · simpa [State.raisedNone] using hreport
    · refine frame_of_ring_pass ⟨true, wa, lanes, data, o⟩ hy ?_ ?_
      · rfl
      · simp [hreport]
  case tears =>
    rintro rfl hs
    rw [ringWrite_tears hs] at hexec
    refine ⟨_, hexec, ?_, ?_⟩
    · exact tearSlot_raised (y := passWrite _ y) hreport htag i
    · refine frame_of_ring_pass ⟨true, wa, lanes, data, o⟩ hy ?_ ?_
      · rfl
      · rw [← hreport]
        exact tearSlot_report_parts i (passWrite _ y)
end

section
/-! PROOF. The settle row (R73): its two directions, and the distance to the target, which every settle shortens by
SETTLE_RATE until it is 0. -/

namespace Sys2Proof.Machine

/-- With neither swell nor fade the level moves by the settle row (R71, R73). -/
theorem levelAfter_settleRow {side : Side} (hs : side.swell = false) (hf : side.fade = false) (slow fast q : Nat) :
    levelAfter side slow fast q =
      if side.level ≤ side.target then min side.target (side.level + q) else max side.target (side.level - q) := by
  simp [levelAfter, hs, hf]

/-- A level not above the target rises by the rate, but not past the target. -/
theorem levelAfter_settle_up {side : Side} (hs : side.swell = false) (hf : side.fade = false)
    (h : side.level ≤ side.target) (slow fast q : Nat) :
    levelAfter side slow fast q = min side.target (side.level + q) := by
  rw [levelAfter_settleRow hs hf, if_pos h]

/-- A level above the target falls by the rate, but not past the target. -/
theorem levelAfter_settle_down {side : Side} (hs : side.swell = false) (hf : side.fade = false)
    (h : side.target < side.level) (slow fast q : Nat) :
    levelAfter side slow fast q = max side.target (side.level - q) := by
  rw [levelAfter_settleRow hs hf, if_neg (Nat.not_le.mpr h)]

/-- A settle stays under every bound of the level and the target. -/
theorem levelAfter_settle_le {side : Side} {bound : Nat} (hs : side.swell = false) (hf : side.fade = false)
    (hl : side.level ≤ bound) (ht : side.target ≤ bound) (slow fast q : Nat) :
    levelAfter side slow fast q ≤ bound := by
  rcases Nat.lt_or_ge side.target side.level with h | h
  · rw [levelAfter_settle_down hs hf h]
    omega
  · rw [levelAfter_settle_up hs hf h]
    omega

/-- A settle takes the rate off the distance to the target, down to 0. -/
theorem natAbs_levelAfter_settle {side : Side} (hs : side.swell = false) (hf : side.fade = false) (slow fast q : Nat) :
    ((levelAfter side slow fast q : Int) - side.target).natAbs = ((side.level : Int) - side.target).natAbs - q := by
  rcases Nat.lt_or_ge side.target side.level with h | h
  · rw [levelAfter_settle_down hs hf h]
    omega
  · rw [levelAfter_settle_up hs hf h]
    omega

end Sys2Proof.Machine

open Sys2Proof Sys2Proof.Machine

/-- Settles O36: the two directions of the row are `levelAfter_settle_up` and `levelAfter_settle_down`; four settles of 128
take 512 off a distance of at most 496 (`natAbs_levelAfter_settle`). -/
theorem settleRowMovesTowardTheTarget : Obligations.settle_row_moves_toward_the_target := by
  intro side slow fast settle hs hf settled
  refine ⟨fun h => ?up, fun h => ?down, fun h => ?same, fun hl ht => ⟨?bounded, ?reached⟩⟩
  case up =>
    have hup : settled settle side.level = min side.target (side.level + settle) :=
      levelAfter_settle_up hs hf (Nat.le_of_lt h) slow fast settle
    rw [hup]
    split <;> omega
  case down =>
    have hdown : settled settle side.level = max side.target (side.level - settle) :=
      levelAfter_settle_down hs hf h slow fast settle
    rw [hdown]
    split <;> omega
  case same =>
    have hup : settled settle side.level = min side.target (side.level + settle) :=
      levelAfter_settle_up hs hf (Nat.le_of_eq h) slow fast settle
    omega
  case bounded => exact levelAfter_settle_le hs hf hl ht slow fast settle
  case reached =>
    have hdist (level : Nat) :
        ((settled 128 level : Int) - side.target).natAbs = ((level : Int) - side.target).natAbs - 128 :=
      natAbs_levelAfter_settle (side := { side with level := level }) hs hf slow fast 128
    have hreached :
        ((settled 128 (settled 128 (settled 128 (settled 128 side.level))) : Int) - side.target).natAbs = 0 := by
      rw [hdist, hdist, hdist, hdist]
      omega
    omega
end

section
/-! PROOF. Agreement with value and mask (R149), the comparison that every test of the Cue Unit makes. -/

namespace Sys2Proof.Machine

/-- Agreement is equality under the mask (R149). -/
theorem agrees_iff_and_eq {x value mask : Nat} : agrees x value mask = true ↔ x &&& mask = value &&& mask := by
  rw [agrees, decide_eq_true_iff]

/-- The bits outside the mask take no part. -/
theorem agrees_iff_testBit {x value mask : Nat} :
    agrees x value mask = true ↔ ∀ i, mask.testBit i = true → x.testBit i = value.testBit i := by
  rw [agrees_iff_and_eq]
  constructor
  · intro hand i hi
    have hbit : (x &&& mask).testBit i = (value &&& mask).testBit i := by rw [hand]
    simpa [Nat.testBit_and, hi] using hbit
  · intro hbits
    refine Nat.eq_of_testBit_eq fun i => ?_
    rw [Nat.testBit_and, Nat.testBit_and]
    cases hi : mask.testBit i with
    | false => simp
    | true => rw [hbits i hi]

/-- No bit is selected, so nothing can disagree. -/
theorem agrees_mask_zero (x value : Nat) : agrees x value 0 = true := by
  rw [agrees_iff_and_eq, Nat.and_zero, Nat.and_zero]

/-- A mask of `width` ones leaves a number of `width` bits as it is. -/
theorem agrees_full_mask {x value width : Nat} (hx : x < 2 ^ width) (hv : value < 2 ^ width) :
    agrees x value (2 ^ width - 1) = true ↔ x = value := by
  rw [agrees_iff_and_eq, Nat.and_two_pow_sub_one_of_lt_two_pow hx, Nat.and_two_pow_sub_one_of_lt_two_pow hv]

end Sys2Proof.Machine

open Sys2Proof Sys2Proof.Machine

/-- Settles O12: bit by bit `agrees_iff_testBit`, with the two extreme masks by `agrees_mask_zero` and `agrees_full_mask`. -/
theorem agreementComparesTheMaskedBits : Obligations.agreement_compares_the_masked_bits := fun x value _ =>
  ⟨agrees_iff_testBit, agrees_mask_zero x value, fun _ => agrees_full_mask⟩
end

section
/-! PROOF. The frame's bytes as numbers (R185), and the kind test and the pedal test of R137. -/

namespace Sys2Proof.Machine

theorem frameKindCode_le (k : FrameKind) : frameKindCode k ≤ 4 := by
  cases k <;> decide

theorem pedalNumber_le (p : Pedal) : pedalNumber p ≤ 3 := by
  cases p <;> decide

/-- Byte 1 overflows for no kind and no pedal: the kind is its high half, the pedal its low half (R185). -/
theorem toNat_frameByte_one (k : FrameKind) (p : Pedal) :
    (BitVec.ofNat 8 (16 * frameKindCode k + pedalNumber p)).toNat = 16 * frameKindCode k + pedalNumber p := by
  have hk := frameKindCode_le k
  have hp := pedalNumber_le p
  rw [BitVec.toNat_ofNat, Nat.mod_eq_of_lt (by omega)]

/-- Byte 2 holds every depth of a pedal (R185). -/
theorem toNat_frameByte_two {depth : Nat} (h : depth ≤ 15) : (BitVec.ofNat 8 depth).toNat = depth := by
  rw [BitVec.toNat_ofNat, Nat.mod_eq_of_lt (by omega)]

/-- A frame of the unit is read as it was made, for the depth as a number (R185; `parseFrame_made`). -/
theorem parseFrame_of_frameBytes {k : FrameKind} (hk : k ≠ .move) {p : Pedal} {depth : Nat} (hd : depth ≤ 15)
    {b1 b2 : Byte} (hb : frameBytes k p depth = [b1, b2, checkByte b1 b2]) :
    parseFrame b1 b2 (checkByte b1 b2) = some (k, p, depth) := by
  obtain ⟨c1, c2, hc, hparse⟩ := parseFrame_made k hk p (BitVec.ofNatLT depth (by omega))
  rw [BitVec.toNat_ofNatLT] at hc hparse
  have hbytes := hb.symm.trans hc
  simp only [List.cons.injEq] at hbytes
  obtain ⟨rfl, rfl, -⟩ := hbytes
  exact hparse

/-- The kind test refuses every code but ACK, NAK and ARRIVED (R136, R185). -/
theorem unitKindOf_eq_none {n : Nat} (hack : n ≠ 2) (hnak : n ≠ 3) (harrived : n ≠ 4) : unitKindOf n = none := by
  rw [unitKindOf, if_neg hack, if_neg hnak, if_neg harrived]

/-- The pedal test refuses 0 and every number from 4 on (R185). -/
theorem pedalOf_eq_none {n : Nat} (h : n = 0 ∨ 4 ≤ n) : pedalOf n = none := by
  rw [pedalOf, if_neg (by omega), if_neg (by omega), if_neg (by omega)]

/-- A frame that fails the kind test is not taken, whatever its other bytes (R137). -/
theorem parseFrame_eq_none_of_kind {b1 : Byte} (h : unitKindOf (b1.toNat / 16) = none) (b2 b3 : Byte) :
    parseFrame b1 b2 b3 = none := by
  simp [parseFrame, h]

/-- A frame that fails the pedal test is not taken, whatever its other bytes (R137). -/
theorem parseFrame_eq_none_of_pedal {b1 : Byte} (h : pedalOf (b1.toNat % 16) = none) (b2 b3 : Byte) :
    parseFrame b1 b2 b3 = none := by
  simp [parseFrame, h]

end Sys2Proof.Machine

open Sys2Proof Sys2Proof.Machine

/-- Settles O50: the bytes as numbers by `toNat_frameByte_one` and `toNat_frameByte_two`, the reading back by
`parseFrame_of_frameBytes`, and the two refusals by the kind test and the pedal test. -/
theorem linkFramesAreReadAsTheyAreMade : Obligations.link_frames_are_read_as_they_are_made := by
  refine ⟨fun k p depth hd => ⟨_, _, rfl, toNat_frameByte_two hd, ?byteOne, ?readBack⟩, ?kind, ?pedal⟩
  case byteOne =>
    rw [toNat_frameByte_one]
    cases k <;> cases p <;> rfl
  case readBack => exact fun hk => parseFrame_of_frameBytes hk hd rfl
  case kind =>
    exact fun b1 b2 b3 hack hnak harrived =>
      parseFrame_eq_none_of_kind (unitKindOf_eq_none hack hnak harrived) b2 b3
  case pedal => exact fun b1 b2 b3 hnum => parseFrame_eq_none_of_pedal (pedalOf_eq_none hnum) b2 b3
end

section
/-! PROOF. The invariants that hold of the memory, the schedule, the sostenuto set, the firing count and the locks: one relation
between two states that says each is kept, and one lemma for each operation that touches what they speak of. -/

namespace Sys2Proof.Machine

/-! ## The relation -/

/-- Each of the five invariants that holds of `s` holds of `s'`. -/
structure Kept (s s' : State) : Prop where
  mem : s.memOk → s'.memOk
  sched : scheduleOk s.sched → scheduleOk s'.sched
  sost : s.sostenutoOk → s'.sostenutoOk
  firing : s.firingOk → s'.firingOk
  locks : s.locksOk → s'.locksOk

theorem Kept.refl (s : State) : Kept s s := ⟨id, id, id, id, id⟩

theorem Kept.trans {a b c : State} (h : Kept a b) (h' : Kept b c) : Kept a c :=
  ⟨h'.mem ∘ h.mem, h'.sched ∘ h.sched, h'.sost ∘ h.sost, h'.firing ∘ h.firing, h'.locks ∘ h.locks⟩

/-- An operation that leaves alone what the invariants speak of keeps them. -/
theorem Kept.of_same {s s' : State}
    (h : s'.mem = s.mem ∧ s'.sched = s.sched ∧ s'.fire = s.fire ∧ s'.keys = s.keys ∧ s'.pedals = s.pedals) : Kept s s' := by
  obtain ⟨hm, hs, hf, hk, hp⟩ := h
  constructor
  · simp [State.memOk, hm]
  · simp [hs]
  · simp [State.sostenutoOk, hp]
  · simp [State.firingOk, State.firingKeys, hf, hk]
  · simp [State.locksOk, State.key, hk]

/-- The firing queue plays no part in the invariants. -/
theorem Kept.of_count {s s' : State}
    (h : s'.mem = s.mem ∧ s'.sched = s.sched ∧ s'.fire.count = s.fire.count ∧ s'.keys = s.keys ∧ s'.pedals = s.pedals) :
    Kept s s' := by
  obtain ⟨hm, hs, hf, hk, hp⟩ := h
  constructor
  · simp [State.memOk, hm]
  · simp [hs]
  · simp [State.sostenutoOk, hp]
  · simp [State.firingOk, State.firingKeys, hf, hk]
  · simp [State.locksOk, State.key, hk]

/-- A new memory in canonical form. -/
theorem Kept.of_mem {s s' : State} (hm : s.memOk → s'.memOk)
    (h : s'.sched = s.sched ∧ s'.fire = s.fire ∧ s'.keys = s.keys ∧ s'.pedals = s.pedals) : Kept s s' := by
  obtain ⟨hs, hf, hk, hp⟩ := h
  refine ⟨hm, ?_, ?_, ?_, ?_⟩
  · simp [hs]
  · simp [State.sostenutoOk, hp]
  · simp [State.firingOk, State.firingKeys, hf, hk]
  · simp [State.locksOk, State.key, hk]

/-- A new schedule in order. -/
theorem Kept.of_sched {s s' : State} (hl : scheduleOk s.sched → scheduleOk s'.sched)
    (h : s'.mem = s.mem ∧ s'.fire = s.fire ∧ s'.keys = s.keys ∧ s'.pedals = s.pedals) : Kept s s' := by
  obtain ⟨hm, hf, hk, hp⟩ := h
  refine ⟨?_, hl, ?_, ?_, ?_⟩
  · simp [State.memOk, hm]
  · simp [State.sostenutoOk, hp]
  · simp [State.firingOk, State.firingKeys, hf, hk]
  · simp [State.locksOk, State.key, hk]

/-- New pedal records. -/
theorem Kept.of_pedals {s s' : State} (hp : s.sostenutoOk → s'.sostenutoOk)
    (h : s'.mem = s.mem ∧ s'.sched = s.sched ∧ s'.fire = s.fire ∧ s'.keys = s.keys) : Kept s s' := by
  obtain ⟨hm, hs, hf, hk⟩ := h
  refine ⟨?_, ?_, hp, ?_, ?_⟩
  · simp [State.memOk, hm]
  · simp [hs]
  · simp [State.firingOk, State.firingKeys, hf, hk]
  · simp [State.locksOk, State.key, hk]

/-- New key records, and the firing count. -/
theorem Kept.of_keys {s s' : State} (hf : s.firingOk → s'.firingOk) (hl : s.locksOk → s'.locksOk)
    (h : s'.mem = s.mem ∧ s'.sched = s.sched ∧ s'.pedals = s.pedals) : Kept s s' := by
  obtain ⟨hm, hs, hp⟩ := h
  refine ⟨?_, ?_, ?_, hf, hl⟩
  · simp [State.memOk, hm]
  · simp [hs]
  · simp [State.sostenutoOk, hp]

theorem raise_kept (r : ReportKind) (a d : Word) (s : State) : Kept s (raise r a d s) := Kept.of_same (by simp)

theorem setQueue_kept (q : List Waiting) (s : State) : Kept s (setQueue q s) := Kept.of_count (by simp)

/-- A fold keeps what each of its steps keeps. -/
theorem Kept.foldl {α : Type} (f : State → α → State) (hf : ∀ s a, Kept s (f s a)) (l : List α) (s : State) :
    Kept s (l.foldl f s) := by
  induction l generalizing s with
  | nil => exact Kept.refl s
  | cons a l ih => exact (hf s a).trans (ih (f s a))

/-! ## The firing count and the locks -/

/-- 1 for a key that is FIRING, else 0. -/
def KeyRec.firingOne (r : KeyRec) : Nat := if r.state = .firing then 1 else 0

/-- The record is LOCKED exactly when its SOURCE is OFF or DIRECT (R114). -/
def KeyRec.lockOk (r : KeyRec) : Prop := r.state = .locked ↔ r.source ≠ .timer

theorem KeyRec.firingOne_pos {r : KeyRec} (h : r.state = .firing) : r.firingOne = 1 := if_pos h

theorem KeyRec.firingOne_zero {r : KeyRec} (h : r.state ≠ .firing) : r.firingOne = 0 := if_neg h

/-- A key that is FIRING is counted. -/
theorem firingOne_le_firingKeys (s : State) (k : Key) : (s.key k).firingOne ≤ s.firingKeys := by
  by_cases h : (s.key k).state = .firing
  · rw [KeyRec.firingOne_pos h]
    exact List.countP_pos_iff.mpr ⟨s.key k, List.getElem_mem _, by simpa using h⟩
  · rw [KeyRec.firingOne_zero h]
    exact Nat.zero_le _

/-- One key changed moves the number of FIRING keys by that key alone. -/
theorem firingKeys_updKey (k : Key) (f : KeyRec → KeyRec) (s : State) :
    (updKey k f s).firingKeys = s.firingKeys - (s.key k).firingOne + (f (s.key k)).firingOne := by
  have hk : k.val < s.keys.data.length := by rw [s.keys.len]; exact k.isLt
  have hone : ∀ r : KeyRec, (if decide (r.state = .firing) = true then 1 else 0) = r.firingOne := fun r => by
    simp [KeyRec.firingOne]
  have h := List.countP_set (p := fun r : KeyRec => decide (r.state = .firing)) (a := f (s.key k)) hk
  rwa [hone, hone] at h

theorem locksOk_updKey {k : Key} {f : KeyRec → KeyRec} {s : State} (hf : (s.key k).lockOk → (f (s.key k)).lockOk)
    (h : s.locksOk) : (updKey k f s).locksOk := by
  intro k'
  rw [updKey_key]
  split
  · exact hf (h k)
  · exact h k'

/-- A key record changed in neither its FIRING state nor its lock. -/
theorem updKey_kept {k : Key} {f : KeyRec → KeyRec} {s : State} (hf : (f (s.key k)).firingOne = (s.key k).firingOne)
    (hl : (s.key k).lockOk → (f (s.key k)).lockOk) : Kept s (updKey k f s) := by
  refine Kept.of_keys (fun h => ?_) (locksOk_updKey hl) (by simp)
  have := firingOne_le_firingKeys s k
  simp only [State.firingOk, firingKeys_updKey, updKey_keeps, hf] at h ⊢
  omega

/-- A key record changed in neither its state nor its SOURCE. -/
theorem updKey_kept_of_state {k : Key} {f : KeyRec → KeyRec} {s : State} (hs : (f (s.key k)).state = (s.key k).state)
    (hsrc : (f (s.key k)).source = (s.key k).source) : Kept s (updKey k f s) :=
  updKey_kept (by simp [KeyRec.firingOne, hs]) (by simp [KeyRec.lockOk, hs, hsrc])

/-- A key that leaves its state for one that is not FIRING takes itself out of the firing count (R93). -/
theorem firingOk_leaveFiring {k : Key} {f : KeyRec → KeyRec} {s : State} (hf : (f (s.key k)).state ≠ .firing)
    (h : s.firingOk) : (leaveFiring (s.key k).state (updKey k f s)).firingOk := by
  have hle := firingOne_le_firingKeys s k
  have hkeys : (leaveFiring (s.key k).state (updKey k f s)).firingKeys = (updKey k f s).firingKeys := by
    simp [State.firingKeys]
  unfold State.firingOk at h ⊢
  rw [hkeys, firingKeys_updKey, KeyRec.firingOne_zero hf, ← h]
  by_cases hs : (s.key k).state = .firing <;> simp [leaveFiring, KeyRec.firingOne, hs]

theorem locksOk_leaveFiring {was : KeyState} {s : State} (h : s.locksOk) : (leaveFiring was s).locksOk := by
  intro k
  rw [leaveFiring_key]
  exact h k

theorem leaveFiring_kept {k : Key} {f : KeyRec → KeyRec} {s : State} (hf : (f (s.key k)).state ≠ .firing)
    (hl : (s.key k).lockOk → (f (s.key k)).lockOk) : Kept s (leaveFiring (s.key k).state (updKey k f s)) :=
  Kept.of_keys (firingOk_leaveFiring hf) (fun h => locksOk_leaveFiring (locksOk_updKey hl h)) (by simp)

/-- A key that is not LOCKED goes to RELEASING (R110). -/
theorem toReleasing_kept {k : Key} {s : State} (h : (s.key k).state ≠ .locked) : Kept s (toReleasing k s) :=
  leaveFiring_kept (by simp [KeyRec.releasing]) (by simp [KeyRec.lockOk, KeyRec.releasing, h])

theorem enterHolding_kept {k : Key} {s : State} (h : (s.key k).state ≠ .locked) : Kept s (enterHolding k s) :=
  leaveFiring_kept (by simp [KeyRec.entersHolding]) (by simp [KeyRec.lockOk, KeyRec.entersHolding, h])

theorem keysToIdle_kept (s : State) : Kept s (keysToIdle s) :=
  Kept.foldl _ (fun _ _ => leaveFiring_kept (by simp [KeyRec.toIdle]) (by simp [KeyRec.lockOk, KeyRec.toIdle])) _ _

theorem strikeGone_kept (k : Key) (s : State) : Kept s (strikeGone k s) :=
  updKey_kept_of_state (strikeGone_state _) (by cases h : (s.key k).state <;> simp [KeyRec.strikeGone, h])

theorem dropWaiting_kept (k : Key) (s : State) : Kept s (dropWaiting k s) := by
  unfold dropWaiting
  split
  · exact Kept.refl s
  · exact ((setQueue_kept _ s).trans (raise_kept _ _ _ _)).trans (strikeGone_kept k _)

/-! ## Grants (R96, R105) -/

/-- A strike is granted to a key that is free: one more key is FIRING, and the count rises by one. -/
theorem grantOne_kept {w : Waiting} {s : State} (h : (s.key w.key).free = true) : Kept s (grantOne w s) := by
  have hrest : (s.key w.key).state = .rest := by
    simp only [KeyRec.free, Bool.and_eq_true, decide_eq_true_eq] at h
    exact h.1
  unfold grantOne
  split
  · exact ((setQueue_kept _ s).trans (raise_kept _ _ _ _)).trans (strikeGone_kept w.key _)
  · refine Kept.of_keys (fun hf => ?_) (fun hl => ?_) (by simp)
    · have hkey : (setCount (s.fire.count + 1) (setQueue (withoutKey w.key s.fire.queue) s)).key w.key = s.key w.key := by
        simp [State.key]
      have hnum : (setCount (s.fire.count + 1) (setQueue (withoutKey w.key s.fire.queue) s)).firingKeys = s.firingKeys := by
        simp [State.firingKeys]
      unfold State.firingOk at hf ⊢
      rw [firingKeys_updKey, hkey, hnum, KeyRec.firingOne_zero (by simp [hrest]),
        KeyRec.firingOne_pos (by simp [KeyRec.granted]), ← hf]
      simp
    · refine locksOk_updKey ?_ (s := setCount _ (setQueue _ s)) hl
      simp [KeyRec.lockOk, KeyRec.granted, State.key] at hrest ⊢
      simp [hrest]

theorem grantLoop_kept (n : Nat) (s : State) : Kept s (grantLoop n s) := by
  induction n generalizing s with
  | zero => exact Kept.refl s
  | succ n ih =>
    unfold grantLoop
    split
    · split
      · exact Kept.refl s
      · rename_i w hw
        exact (grantOne_kept (by simpa using List.find?_some hw)).trans (ih _)
    · exact Kept.refl s

theorem grantStrikes_kept (s : State) : Kept s (grantStrikes s) := grantLoop_kept _ s

/-! ## The order of the schedule (R85) -/

theorem scheduleOk_sublist {l l' : List Entry} (h : l'.Sublist l) (hl : scheduleOk l) : scheduleOk l' := by
  obtain ⟨hord, hlen, hmove⟩ := hl
  exact ⟨hord.sublist h, Nat.le_trans h.length_le hlen, fun p => Nat.le_trans (h.filter _).length_le (hmove p)⟩

/-- An entry inserted is one more entry. -/
theorem insertEntry_perm (e : Entry) (l : List Entry) : (insertEntry e l).Perm (e :: l) := by
  induction l with
  | nil => exact List.Perm.refl _
  | cons x l ih =>
    rw [insertEntry]
    split
    · exact (ih.cons x).trans (List.Perm.swap e x l)
    · exact List.Perm.refl _

theorem insertEntry_pairwise {e : Entry} {l : List Entry} (h : l.Pairwise (fun x y => x.due ≤ y.due)) :
    (insertEntry e l).Pairwise (fun x y => x.due ≤ y.due) := by
  induction l with
  | nil => simp [insertEntry]
  | cons x l ih =>
    obtain ⟨hx, hl⟩ := List.pairwise_cons.mp h
    rw [insertEntry]
    split
    · rename_i hxe
      refine List.pairwise_cons.mpr ⟨fun y hy => ?_, ih hl⟩
      rcases List.mem_cons.mp ((insertEntry_perm e l).mem_iff.mp hy) with rfl | hy
      · exact hxe
      · exact hx y hy
    · rename_i hxe
      refine List.pairwise_cons.mpr ⟨fun y hy => ?_, h⟩
      have hex : e.due ≤ x.due := Nat.le_of_not_le hxe
      rcases List.mem_cons.mp hy with rfl | hy
      · exact hex
      · exact Nat.le_trans hex (hx y hy)

/-- An entry inserted with room, and with no MOVE of its pedal, keeps the schedule in order. -/
theorem scheduleOk_insertEntry {e : Entry} {l : List Entry} (hroom : l.length < Config.scheduleSize)
    (hmove : ∀ p, isMoveOf p e = true → l.filter (isMoveOf p) = []) (h : scheduleOk l) :
    scheduleOk (insertEntry e l) := by
  obtain ⟨hord, -, hone⟩ := h
  refine ⟨insertEntry_pairwise hord, ?_, fun p => ?_⟩
  · rw [(insertEntry_perm e l).length_eq]
    exact hroom
  · rw [((insertEntry_perm e l).filter _).length_eq, List.filter_cons]
    split
    · rename_i he
      simp [hmove p he]
    · exact hone p

theorem setSched_kept {l : List Entry} {s : State} (h : scheduleOk s.sched → scheduleOk l) : Kept s (setSched l s) :=
  Kept.of_sched h (by simp)

theorem setSched_sublist_kept {l : List Entry} {s : State} (h : l.Sublist s.sched) : Kept s (setSched l s) :=
  setSched_kept (scheduleOk_sublist h)

theorem insertSched_kept {e : Entry} {s : State} (hroom : s.sched.length < Config.scheduleSize)
    (hmove : ∀ p, isMoveOf p e = true → s.sched.filter (isMoveOf p) = []) : Kept s (insertSched e s) :=
  setSched_kept (scheduleOk_insertEntry hroom hmove)

theorem endNote_kept (k : Key) (note : Option Byte) (s : State) : Kept s (endNote k note s) := by
  unfold endNote
  split
  · exact Kept.refl s
  · exact setSched_sublist_kept List.eraseP_sublist

theorem dropMove_kept (p : Pedal) (s : State) : Kept s (dropMove p s) := setSched_sublist_kept List.filter_sublist

end Sys2Proof.Machine
end

section
/-! PROOF. The five invariants through the operations on keys, pedals, schedule, lines, load and commands. -/

namespace Sys2Proof.Machine

/-! ## Keys (chapters 5 and 6) -/

theorem strikeJoins_kept (k : Key) (serial : Byte) (s : State) : Kept s (strikeJoins k serial s) := by
  have hsame : ∀ (f : KeyRec → KeyRec) (x : State), (∀ r, (f r).state = r.state ∧ (f r).source = r.source) →
      Kept x (updKey k f x) := fun f x h => updKey_kept_of_state (h _).1 (h _).2
  unfold strikeJoins
  split
  case h_1 => exact hsame _ _ fun _ => ⟨rfl, rfl⟩
  case h_2 => exact hsame _ _ fun _ => ⟨rfl, rfl⟩
  case h_3 => exact (endNote_kept k _ s).trans (hsame _ _ fun _ => ⟨rfl, rfl⟩)
  case h_4 hk =>
    split
    · refine ((endNote_kept k _ s).trans (hsame _ _ ?same)).trans (toReleasing_kept ?_)
      case same => exact fun _ => ⟨rfl, rfl⟩
      rw [updKey_key, if_pos rfl, (endNote_parts k _ s).2.2.2, hk]
      decide
    · exact (endNote_kept k _ s).trans (hsame _ _ fun _ => ⟨rfl, rfl⟩)
  case h_5 => exact Kept.refl s

theorem expireOnEntry_kept (w : Waiting) (s : State) : Kept s (expireOnEntry w s) := by
  unfold expireOnEntry
  split
  · exact dropWaiting_kept _ s
  · exact Kept.refl s

theorem replaceWaiting_kept (k : Key) (s : State) : Kept s (replaceWaiting k s) := by
  unfold replaceWaiting
  split
  · exact Kept.refl s
  · exact (setQueue_kept _ s).trans (raise_kept _ _ _ _)

theorem enterQueue_kept (w : Waiting) (s : State) : Kept s (enterQueue w s) := by
  unfold enterQueue
  split
  · exact Kept.refl s
  · have hjoin : Kept s (setQueue (insertWaiting w (replaceWaiting w.key s).fire.queue) (replaceWaiting w.key s)) :=
      (replaceWaiting_kept w.key s).trans (setQueue_kept _ _)
    exact ((hjoin.trans (strikeJoins_kept _ _ _)).trans (grantStrikes_kept _)).trans (expireOnEntry_kept w _)

theorem takeRelease_kept (k : Key) (serial : Byte) (s : State) : Kept s (takeRelease k serial s) := by
  have howed : Kept s (updKey k (fun r => { r with releaseOwed := true }) s) := updKey_kept_of_state rfl rfl
  unfold takeRelease
  split
  · split
    case h_1 => exact howed
    case h_2 hk =>
      split
      · exact toReleasing_kept (by rw [hk]; decide)
      · exact howed
    case h_3 => exact howed
    case h_4 => exact howed
    case h_5 => exact Kept.refl s
  · split
    · exact updKey_kept_of_state rfl rfl
    · exact Kept.refl s

theorem earlyRelease_kept {k : Key} {s : State} (cause : Word) (h : (s.key k).state ≠ .locked) :
    Kept s (earlyRelease k cause s) := by
  have hrel : Kept s (toReleasing k (endNote k (s.key k).note s)) :=
    (endNote_kept k _ s).trans (toReleasing_kept (by rwa [(endNote_parts k _ s).2.2.2]))
  exact hrel.trans (raise_kept _ _ _ _)

theorem reduceHold_kept (k : Key) (s : State) : Kept s (reduceHold k s) :=
  Kept.trans (updKey_kept_of_state rfl rfl) (raise_kept _ _ _ _)

theorem heatTest_kept (k : Key) (s : State) : Kept s (heatTest k s) := by
  unfold heatTest
  split
  case isTrue hk =>
    have hlock : (s.key k).state ≠ .locked := by simp [hk]
    split
    · exact earlyRelease_kept _ hlock
    · split
      · split
        · exact earlyRelease_kept _ hlock
        · split
          · exact Kept.refl s
          · exact reduceHold_kept k s
      · exact Kept.refl s
  case isFalse => exact Kept.refl s

theorem heatKey_kept (s : State) (k : Key) : Kept s (heatKey s k) :=
  Kept.trans (updKey_kept_of_state rfl rfl) (heatTest_kept k _)

theorem minHoldOut_kept {k : Key} {s : State} (h : (s.key k).state ≠ .locked) : Kept s (minHoldOut k s) := by
  unfold minHoldOut
  split
  · exact toReleasing_kept h
  · exact updKey_kept_of_state rfl rfl

theorem minHoldAtOnce_kept (k : Key) (s : State) : Kept s (minHoldAtOnce k s) := by
  unfold minHoldAtOnce
  split
  · rename_i h
    exact minHoldOut_kept (by rw [h.2]; decide)
  · exact Kept.refl s

theorem pulseEnds_kept {k : Key} {s : State} (first : Bool) (h : (s.key k).state ≠ .locked) :
    Kept s (pulseEnds k first s) := by
  unfold pulseEnds
  split
  · exact (toReleasing_kept h).trans (grantStrikes_kept _)
  · split
    · exact (((enterHolding_kept h).trans (minHoldAtOnce_kept k _)).trans (heatTest_kept k _)).trans (grantStrikes_kept _)
    · exact (((enterHolding_kept h).trans (heatTest_kept k _)).trans (minHoldAtOnce_kept k _)).trans (grantStrikes_kept _)

theorem becomesFree_kept {k : Key} {s : State} (h : (s.key k).state = .releasing ∨ (s.key k).state = .rest) :
    Kept s (becomesFree k s) := by
  have hrest : Kept s (updKey k (fun r => { r with state := .rest, timer := none }) s) := by
    rcases h with h | h <;> exact updKey_kept (by simp [KeyRec.firingOne, h]) (by simp [KeyRec.lockOk, h])
  exact hrest.trans (grantStrikes_kept _)

/-! ## Sources (R114 to R117) -/

theorem lockKey_kept {k : Key} {src : Source} {s : State} (direct : Nat) (h : src ≠ .timer) :
    Kept s (lockKey k src direct s) := by
  have hlock : Kept s (leaveFiring (s.key k).state (updKey k (fun r => r.lockedBy src direct) s)) :=
    leaveFiring_kept (by simp [KeyRec.lockedBy]) (by simp [KeyRec.lockOk, KeyRec.lockedBy, h])
  refine (hlock.trans (setSched_sublist_kept ?_)).trans (setQueue_kept _ _)
  simp

/-- The record of a key that is unlocked (R116). -/
theorem unlockKey_key (k : Key) (direct : Nat) (s : State) (k' : Key) :
    (unlockKey k direct s).key k' =
      if k' = k then
        KeyRec.releasing { s.key k with source := .timer, directDuty := direct, note := none, nextNote := none }
          (s.now + Config.unit * s.shadow.recovery)
      else s.key k' := by
  unfold unlockKey
  rw [toReleasing_key, updKey_key, if_pos rfl, updKey_key]
  split <;> simp

theorem unlockKey_kept {k : Key} {s : State} (direct : Nat) (h : (s.key k).state = .locked) :
    Kept s (unlockKey k direct s) := by
  refine Kept.of_keys (fun hf => ?_) (fun hl k' => ?_) (by simp [unlockKey])
  · have hmid : State.firingOk (updKey k
        (fun r => { r with source := .timer, directDuty := direct, note := none, nextNote := none }) s) := by
      have := firingKeys_updKey k
        (fun r => { r with source := .timer, directDuty := direct, note := none, nextNote := none }) s
      simp only [State.firingOk, updKey_keeps] at hf ⊢
      rw [this, hf, KeyRec.firingOne_zero (by simp [h]), KeyRec.firingOne_zero (by simp [h])]
      rfl
    exact firingOk_leaveFiring (by simp [KeyRec.releasing]) hmid
  · rw [unlockKey_key]
    split
    · simp [KeyRec.releasing]
    · exact hl k'

theorem applyKeyWord_kept (k : Key) (w : Word) (s : State) : Kept s (applyKeyWord k w s) := by
  unfold applyKeyWord
  split
  case isTrue hsrc =>
    split
    case isTrue hk => exact unlockKey_kept _ hk
    case isFalse hk => exact updKey_kept rfl (by simp [KeyRec.lockOk, hk])
  case isFalse hsrc =>
    split
    case isTrue hk => exact updKey_kept rfl (by simp [KeyRec.lockOk, hk, hsrc])
    case isFalse => exact lockKey_kept _ hsrc

theorem alignKeys_kept (s : State) : Kept s (alignKeys s) := Kept.foldl _ (fun x k => applyKeyWord_kept k _ x) _ _

theorem refreshHolds_kept (s : State) : Kept s (refreshHolds s) := by
  refine Kept.foldl _ (fun x k => ?_) _ _
  split
  · exact updKey_kept_of_state rfl rfl
  · exact Kept.refl x

/-! ## STOP and SILENCE (R118, R119) -/

theorem emptyQueue_kept (s : State) : Kept s (emptyQueue s) :=
  (Kept.foldl _ (fun x (w : Waiting) => strikeGone_kept w.key x) _ _).trans (setQueue_kept _ _)

theorem stopKeys_kept (s : State) : Kept s (stopKeys s) := by
  refine Kept.foldl _ (fun x k => ?_) _ _
  split
  · rename_i h
    exact toReleasing_kept (by rw [h]; decide)
  · exact Kept.refl x

theorem silenceKeys_kept (s : State) : Kept s (silenceKeys s) := by
  refine Kept.foldl _ (fun x k => ?_) _ _
  split
  · rename_i h
    refine toReleasing_kept ?_
    rcases h with h | h <;> simp [h]
  · exact Kept.refl x

/-! ## Pedals (R145) -/

/-- The sostenuto set and what its rule asks of pedal 3 stay as they are. -/
theorem Kept.of_sostenuto {s s' : State} (hd : (s'.pedals.pedal .sostenuto).depth = (s.pedals.pedal .sostenuto).depth)
    (hm : (s'.pedals.pedal .sostenuto).motion = (s.pedals.pedal .sostenuto).motion) (hs : s'.pedals.sost = s.pedals.sost)
    (h : s'.mem = s.mem ∧ s'.sched = s.sched ∧ s'.fire = s.fire ∧ s'.keys = s.keys) : Kept s s' :=
  Kept.of_pedals (by simp [State.sostenutoOk, hd, hm, hs]) h

/-- A pedal record changed in neither depth nor motion. -/
theorem updPedal_kept {p : Pedal} {f : PedalRec → PedalRec} {s : State}
    (hd : (f (s.pedals.pedal p)).depth = (s.pedals.pedal p).depth)
    (hm : (f (s.pedals.pedal p)).motion = (s.pedals.pedal p).motion) : Kept s (updPedal p f s) := by
  have hrec : ∀ q, ((updPedal p f s).pedals.pedal q).depth = (s.pedals.pedal q).depth ∧
      ((updPedal p f s).pedals.pedal q).motion = (s.pedals.pedal q).motion := fun q => by
    rw [updPedal_pedal]
    split
    · rename_i h
      subst h
      exact ⟨hd, hm⟩
    · exact ⟨rfl, rfl⟩
  exact Kept.of_sostenuto (hrec _).1 (hrec _).2 rfl (by simp)

theorem setLink_kept (l : Link) (s : State) : Kept s (setLink l s) := Kept.of_sostenuto rfl rfl rfl (by simp)

theorem linkSend_kept (s : State) : Kept s (linkSend s) := by
  have hrec := linkSend_pedal s .sostenuto
  exact Kept.of_sostenuto (by rw [hrec]) (by rw [hrec]) (by rw [linkSend_pedals]) (by simp)

theorem putMove_kept (p : Pedal) (m : Move) (s : State) : Kept s (putMove p m s) := by
  unfold putMove
  split
  · exact Kept.refl s
  · exact updPedal_kept rfl rfl

theorem handMove_kept (p : Pedal) (m : Move) (s : State) : Kept s (handMove p m s) :=
  (putMove_kept p m s).trans (linkSend_kept _)

theorem pedalsToZero_kept (s : State) : Kept s (pedalsToZero s) :=
  Kept.foldl _ (fun _ p => Kept.trans (updPedal_kept rfl rfl) (handMove_kept p _ _)) _ _

/-- A fault touches no other pedal's depth or motion (R143). -/
theorem faultPedal_other {p q : Pedal} (h : q ≠ p) (cause : Word) (s : State) :
    ((faultPedal p cause s).pedals.pedal q).depth = (s.pedals.pedal q).depth ∧
      ((faultPedal p cause s).pedals.pedal q).motion = (s.pedals.pedal q).motion := by
  have habandon : ∀ x : State, (abandonFrame p x).pedals.pedal q = x.pedals.pedal q := fun x => by
    unfold abandonFrame
    split <;> rfl
  unfold faultPedal
  dsimp only
  rw [linkSend_pedal]
  simp only [raise_keeps]
  split <;> simp only [setSost_pedal, habandon, updPedal_pedal, if_neg h, and_self]

theorem faultPedal_kept (p : Pedal) (cause : Word) (s : State) : Kept s (faultPedal p cause s) := by
  refine Kept.of_pedals (fun hs => ?_) (by simp)
  obtain ⟨hrec, hsost⟩ := faultPedal_pedal p cause s
  by_cases hp : p = .sostenuto
  · subst hp
    exact fun _ => hsost
  · have hother := faultPedal_other (q := .sostenuto) (Ne.symm hp) cause s
    rw [if_neg hp] at hsost
    rw [State.sostenutoOk, hother.1, hother.2, hsost]
    exact hs

/-- An acknowledged move takes its pedal to MOVING; its depth stays (R141). -/
theorem takeAck_kept (p : Pedal) (depth : Nat) (s : State) : Kept s (takeAck p depth s) := by
  have hmoving : ∀ e, Kept s (updPedal p (fun r => { r with motion := .moving, retries := 0, travel := e }) s) := fun e => by
    refine Kept.of_pedals (fun hs hlow => ?_) (by simp)
    rw [updPedal_pedal] at hlow
    split at hlow
    · rename_i hp
      subst hp
      exact hs (Or.inr (by simpa using hlow))
    · exact hs hlow
  unfold takeAck
  split
  · exact Kept.refl s
  · exact Kept.refl s
  · split
    · exact ((hmoving _).trans (setLink_kept _ _)).trans (linkSend_kept _)
    · exact Kept.refl s

theorem retransfer_kept (f : Frame) (s : State) : Kept s (retransfer f s) := by
  unfold retransfer
  split
  · exact (updPedal_kept (by rfl) (by rfl)).trans (setLink_kept _ _)
  · exact faultPedal_kept _ _ s

theorem takeNak_kept (p : Pedal) (depth : Nat) (s : State) : Kept s (takeNak p depth s) := by
  unfold takeNak
  split
  · exact Kept.refl s
  · exact Kept.refl s
  · split
    · exact retransfer_kept _ s
    · exact Kept.refl s

/-- At an arrival of pedal 3 the set follows its depth (R145). -/
theorem sostenutoArrives_ok {depth : Nat} {s : State} (hd : (s.pedals.pedal .sostenuto).depth = depth)
    (hm : (s.pedals.pedal .sostenuto).motion ≠ .fault) : (sostenutoArrives depth s).sostenutoOk := by
  unfold sostenutoArrives
  split
  · rintro (h | h)
    · exact absurd h hm
    · have hlow : (s.pedals.pedal .sostenuto).depth < 8 := h
      omega
  · split
    · exact fun _ => by assumption
    · exact fun _ => rfl

theorem returnToZero_kept (p : Pedal) (depth : Nat) (s : State) : Kept s (returnToZero p depth s) := by
  unfold returnToZero
  split
  · exact handMove_kept _ _ s
  · exact Kept.refl s

theorem takeArrived_kept (p : Pedal) (depth : Nat) (s : State) : Kept s (takeArrived p depth s) := by
  unfold takeArrived
  split
  · exact Kept.refl s
  · refine Kept.trans (Kept.of_pedals (fun hs => ?_) ?_) (returnToZero_kept p depth _)
    · split
      · rename_i hp
        subst hp
        exact sostenutoArrives_ok (by rw [updPedal_pedal, if_pos rfl]) (by rw [updPedal_pedal, if_pos rfl]; simp)
      · rename_i hp
        rw [State.sostenutoOk, updPedal_pedal, if_neg (Ne.symm hp)]
        exact hs
    · split <;> simp

theorem takeFrame_kept (b1 b2 b3 : Byte) (s : State) : Kept s (takeFrame b1 b2 b3 s) := by
  unfold takeFrame
  split
  case h_1 => exact Kept.refl s
  case h_2 => exact Kept.refl s
  case h_3 => exact takeAck_kept _ _ s
  case h_4 => exact takeNak_kept _ _ s
  case h_5 => exact takeArrived_kept _ _ s

theorem setRx_kept (bytes : List Byte) (e : Instant) (s : State) : Kept s (setRx bytes e s) :=
  Kept.of_sostenuto rfl rfl rfl (by simp)

theorem assemble_kept (bytes : List Byte) (s : State) : Kept s (assemble bytes s) := by
  unfold assemble
  split
  · exact (setRx_kept _ _ s).trans (takeFrame_kept _ _ _ _)
  · exact setRx_kept _ _ s

theorem linkSend_sost (s : State) : (linkSend s).pedals.sost = s.pedals.sost := by rw [linkSend_pedals]

theorem putMove_sost (p : Pedal) (m : Move) (s : State) : (putMove p m s).pedals.sost = s.pedals.sost := by
  unfold putMove
  split <;> rfl

/-- The pedal initialisation leaves no key in the sostenuto set (R147). -/
theorem initPedals_sost (s : State) : (initPedals s).pedals.sost = [] := by
  have hmoves : ∀ x : State, (allPedals.foldl (fun x p => putMove p { depth := 0, due := x.now } x) x).pedals.sost =
      x.pedals.sost :=
    foldl_keeps (fun x => x.pedals.sost) _ (fun x p => putMove_sost p _ x) _
  simp only [initPedals, linkSend_sost, hmoves, setSost_pedals]

theorem initPedals_kept (s : State) : Kept s (initPedals s) :=
  Kept.of_pedals (fun _ _ => initPedals_sost s) (by simp)

/-! ## The schedule (chapter 5) -/

theorem dispatchEntry_kept (e : Entry) (s : State) : Kept s (dispatchEntry e s) := by
  unfold dispatchEntry
  split
  · exact takeRelease_kept _ _ s
  · exact handMove_kept _ _ s
  · exact enterQueue_kept _ s

theorem makeDueEntry_kept (e : Entry) (s : State) : Kept s (makeDueEntry e s) := by
  unfold makeDueEntry
  split
  · exact (dropMove_kept _ s).trans (dispatchEntry_kept e _)
  · exact dispatchEntry_kept e s
  · exact dispatchEntry_kept e s

/-- The STRIKE that is latest stands in the schedule (R89). -/
theorem mem_of_latestStrike {l : List Entry} {b : Entry} (h : latestStrike l = some b) : b ∈ l := by
  have hfold : ∀ (l : List Entry) (best : Option Entry),
      l.foldl (fun best e =>
        if isStrike e then
          match best with
          | none => some e
          | some b => if b.due ≤ e.due then some e else best
        else best) best = some b → b ∈ l ∨ best = some b := by
    intro l
    induction l with
    | nil => exact fun best h => Or.inr h
    | cons e l ih =>
      intro best h
      rcases ih _ h with h | h
      · exact Or.inl (List.mem_cons_of_mem _ h)
      · have hcase : some e = some b ∨ best = some b := by
          dsimp only at h
          split at h
          · split at h
            · exact Or.inl h
            · split at h
              · exact Or.inl h
              · exact Or.inr h
          · exact Or.inr h
        rcases hcase with h | h
        · exact Or.inl (by simp [Option.some.inj h])
        · exact Or.inr h
  rcases hfold l none h with h | h
  · exact h
  · simp at h

theorem eraseLast_sublist (e : Entry) (l : List Entry) : (eraseLast e l).Sublist l := by
  have h := (List.erase_sublist (a := e) (l := l.reverse)).reverse
  rwa [List.reverse_reverse] at h

/-- An entry that stands in the schedule leaves a place when it is taken out. -/
theorem length_eraseLast {e : Entry} {l : List Entry} (h : e ∈ l) : (eraseLast e l).length = l.length - 1 := by
  simp [eraseLast, List.length_erase_of_mem, h]

/-- An entry other than a MOVE is a MOVE of no pedal. -/
theorem filter_isMoveOf_nil {e : Entry} (he : ∀ p, isMoveOf p e = false) (l : List Entry) (p : Pedal)
    (h : isMoveOf p e = true) : l.filter (isMoveOf p) = [] := by
  simp [he p] at h

/-- A schedule without pedal p's MOVE takes one of pedal p (R87). -/
theorem filter_isMoveOf_dropMove {e : Entry} {p : Pedal} {depth : Nat} (he : e.act = .move p depth) (s : State) (q : Pedal)
    (h : isMoveOf q e = true) : (dropMove p s).sched.filter (isMoveOf q) = [] := by
  simp only [isMoveOf, he, decide_eq_true_eq] at h
  subst h
  simp [dropMove, List.filter_filter]

theorem makeIntoFull_kept {e : Entry} {s : State} (hmove : ∀ p, isMoveOf p e = true → s.sched.filter (isMoveOf p) = []) :
    Kept s (makeIntoFull e s) := by
  unfold makeIntoFull
  split
  · rename_i b hb
    refine Kept.of_sched (fun h => ?_) (by simp)
    have hsub := eraseLast_sublist b s.sched
    have hlen : (eraseLast b s.sched).length < Config.scheduleSize := by
      have := List.length_pos_of_mem (mem_of_latestStrike hb)
      have := h.2.1
      rw [length_eraseLast (mem_of_latestStrike hb)]
      omega
    refine scheduleOk_insertEntry (l := eraseLast b s.sched) hlen (fun p hp => ?_) (scheduleOk_sublist hsub h)
    exact List.sublist_nil.mp (hmove p hp ▸ hsub.filter _)
  · split
    · exact (dispatchEntry_kept e s).trans (raise_kept _ _ _ _)
    · exact dispatchEntry_kept e s
    · exact Kept.refl s

theorem makeEntry_kept (e : Entry) (s : State) : Kept s (makeEntry e s) := by
  unfold makeEntry
  split
  · exact makeDueEntry_kept e s
  · split
    case h_1 hact =>
      have hmove := filter_isMoveOf_nil (e := e) (by simp [isMoveOf, hact]) s.sched
      split
      · exact insertSched_kept (by assumption) hmove
      · exact raise_kept _ _ _ s
    case h_2 hact =>
      have hmove := filter_isMoveOf_nil (e := e) (by simp [isMoveOf, hact]) s.sched
      split
      · exact insertSched_kept (by assumption) hmove
      · exact makeIntoFull_kept hmove
    case h_3 p depth hact =>
      split
      case isTrue hany =>
        refine Kept.of_sched (fun h => ?_) (by simp)
        have hlen : (dropMove p s).sched.length < Config.scheduleSize := by
          obtain ⟨x, hx, hxp⟩ := List.any_eq_true.mp hany
          exact Nat.lt_of_lt_of_le (List.length_filter_lt_length_iff_exists.mpr ⟨x, hx, by simp [hxp]⟩) h.2.1
        exact ((dropMove_kept p s).trans (insertSched_kept hlen (filter_isMoveOf_dropMove hact s))).sched h
      case isFalse hany =>
        have hmove : ∀ q, isMoveOf q e = true → s.sched.filter (isMoveOf q) = [] := fun q hq => by
          simp only [isMoveOf, hact, decide_eq_true_eq] at hq
          subst hq
          simpa [List.filter_eq_nil_iff] using hany
        split
        · exact insertSched_kept (by assumption) hmove
        · exact makeIntoFull_kept hmove

theorem dispatchLoop_kept (n : Nat) (s : State) : Kept s (dispatchLoop n s) := by
  induction n generalizing s with
  | zero => exact Kept.refl s
  | succ n ih =>
    unfold dispatchLoop
    split
    · exact Kept.refl s
    · rename_i e rest hs
      split
      · exact ((setSched_sublist_kept (by simp [hs])).trans (dispatchEntry_kept e _)).trans (ih _)
      · exact Kept.refl s

end Sys2Proof.Machine
end

section
/-! PROOF. The five invariants through lines, commands, loads and the processor port, and every step by the kind of its row:
a processor cycle, an effect of the part, or an edge of RST_N. -/

namespace Sys2Proof.Machine

theorem updTrack_kept (f : Track → Track) (s : State) : Kept s (updTrack f s) := Kept.of_same (by simp)

theorem goDormant_kept (s : State) : Kept s (goDormant s) := Kept.of_same (by simp)

theorem placeResult_kept (code : Nat) (r : Reply) (s : State) : Kept s (placeResult code r s) := Kept.of_same (by simp)

theorem setOwner_kept (o : Option Access) (s : State) : Kept s (setOwner o s) := Kept.of_same (by simp)

/-! ## STOP and SILENCE (R59, R61) -/

theorem stopClock_kept (s : State) : Kept s (stopClock s) :=
  ((Kept.of_same (s' := abandonLine _) (by simp)).trans (setSched_kept fun _ => by simp [scheduleOk])).trans
    (emptyQueue_kept _)

theorem enterStopping_kept (c : Cause) (s : State) : Kept s (enterStopping c s) :=
  (((Kept.of_same (s' := setPlay .stopping c s) (by simp)).trans (stopClock_kept _)).trans (stopKeys_kept _)).trans
    (pedalsToZero_kept _)

theorem enterSilence_kept (s : State) : Kept s (enterSilence s) :=
  (((Kept.of_same (s' := setPlay .stopping .silence s) (by simp)).trans (stopClock_kept _)).trans
    (silenceKeys_kept _)).trans (pedalsToZero_kept _)

/-! ## The stages that make entries (R31, R33, R34) -/

theorem pedalStage_kept (s : State) (p : Pedal) : Kept s (pedalStage s p) := by
  unfold pedalStage
  split
  · exact Kept.refl s
  · exact (updPedal_kept (by rfl) (by rfl)).trans (makeEntry_kept _ _)

theorem noteOff_kept (s : State) (k : Key) : Kept s (noteOff s k) := by
  unfold noteOff
  split
  · exact makeEntry_kept _ s
  · exact Kept.refl s

theorem noteOn_kept (muted : Bool) (s : State) (k : Key) : Kept s (noteOn muted s k) := by
  have hserial : Kept s (bumpSerial k s) := Kept.of_same (by simp)
  unfold noteOn
  split
  · dsimp only
    split
    · exact hserial
    · exact hserial.trans (makeEntry_kept _ _)
  · exact Kept.refl s

theorem noteWork_kept (d : Decode) (keys : List Key) (s : State) : Kept s (noteWork d keys s) := by
  unfold noteWork
  split
  · exact Kept.foldl _ (noteOn_kept d.muted) keys s
  · split
    · exact Kept.refl s
    · exact Kept.foldl _ noteOff_kept keys s

theorem stageWork_kept (d : Decode) (s : State) : Kept s (stageWork d s) := by
  have hpedals : Kept s (if d.muted then s else stagePedals s) := by
    split
    · exact Kept.refl s
    · exact Kept.foldl _ pedalStage_kept _ s
  have hafter : Kept s (if d.muted then s else afterTest s.ring.lineTag s) := by
    split
    · exact Kept.refl s
    · exact Kept.of_same (by simp)
  unfold stageWork
  split
  · exact Kept.of_same (by simp)
  · split
    · exact Kept.of_same (by simp)
    · split
      · exact Kept.of_same (by simp)
      · split
        · exact hpedals
        · split
          · exact noteWork_kept d _ s
          · split
            · exact Kept.of_same (by simp)
            · exact hafter

theorem decodeOn_kept (d : Decode) (upTo : Option Key) (s : State) : Kept s (decodeOn d upTo s) := by
  unfold decodeOn
  split
  · exact (stageWork_kept d s).trans (Kept.of_same (by simp))
  · split
    · exact (noteWork_kept d _ s).trans (updTrack_kept _ _)
    · exact Kept.refl s

/-! ## Loads and commands (sections 10.5, 10.6) -/

theorem loadFails_kept (off : Nat) (s : State) : Kept s (loadFails off s) := by
  have hreset : Kept s (ringReset (setPlay .idle .loadFault (setLoadFault off s))) := Kept.of_same (by simp)
  exact (hreset.trans (keysToIdle_kept _)).trans (goDormant_kept _)

theorem loadSucceeds_kept (s : State) : Kept s (loadSucceeds s) := by
  have hreports : ∀ x, Kept x (activateReports (clearCues x)) := fun x => Kept.of_same (by simp)
  unfold loadSucceeds
  dsimp only
  refine (Kept.trans ?copies (alignKeys_kept _)).trans ((hreports _).trans (initPedals_kept _))
  exact Kept.of_same (by simp)

theorem loadWord_kept (off : Nat) (w : Word) (s : State) : Kept s (loadWord off w s) := by
  have hread : Kept s (setReadCount (s.shadow.readCount + 1) (putField off w s)) := Kept.of_same (by simp)
  unfold loadWord
  dsimp only
  split
  · exact hread.trans (loadFails_kept _ _)
  · split
    · exact hread
    · split
      · exact hread.trans (loadFails_kept _ _)
      · exact hread.trans (loadSucceeds_kept _)

theorem doUnload_kept (s : State) : Kept s (doUnload s) := by
  have hreset : ∀ x, Kept x (ringReset (setPlay .idle .noCause x)) := fun x => Kept.of_same (by simp)
  exact ((raise_kept _ _ _ s).trans (keysToIdle_kept _)).trans ((hreset _).trans (goDormant_kept _))

theorem actOn_kept (c : Command) (s : State) : Kept s (actOn c s) := by
  unfold actOn
  split
  case h_2 => exact doUnload_kept s
  case h_7 => exact enterStopping_kept _ s
  case h_8 => exact enterSilence_kept s
  all_goals exact Kept.of_same (by simp)

theorem takeCommand_kept (code : Nat) (s : State) : Kept s (takeCommand code s) := by
  have hcount : Kept s (bumpCount s) := Kept.of_same (by simp)
  unfold takeCommand
  dsimp only
  split
  · exact hcount.trans (Kept.of_same (by simp))
  · split
    · exact (hcount.trans (actOn_kept _ _)).trans (placeResult_kept _ _ _)
    · exact hcount.trans (Kept.of_same (by simp))

/-! ## Processor cycles (sections 10.2, 10.3) -/

theorem passWrite_kept (c : ProcCycle) (s : State) : Kept s (passWrite c s) :=
  Kept.of_mem (fun h => writeLanes_wf h _ _ _) (by simp)

theorem partWrite_kept (a : Nat) (w : Word) (s : State) : Kept s (partWrite a w s) :=
  Kept.of_mem (fun h => writeWord_wf h _ _) (by simp)

theorem takeField_kept (off : Nat) (w : Word) (c : ProcCycle) (s : State) : Kept s (takeField off w c s) :=
  (passWrite_kept c s).trans (Kept.of_same (by simp [takeField]))

theorem liveEffect_kept (off : Nat) (w : Word) (s : State) : Kept s (liveEffect off w s) := by
  unfold liveEffect
  split
  · exact refreshHolds_kept s
  · split
    · exact Kept.of_same (by simp)
    · split
      · exact Kept.of_same (by simp)
      · split
        · exact Kept.of_same (by simp)
        · split
          · exact (applyKeyWord_kept _ w s).trans (grantStrikes_kept _)
          · exact Kept.refl s

theorem refuseRange_kept (off : Nat) (s : State) : Kept s (refuseRange off s) := raise_kept _ _ _ s

theorem liveWrite_kept (off : Nat) (c : ProcCycle) (s : State) : Kept s (liveWrite off c s) := by
  unfold liveWrite
  dsimp only
  split
  · exact passWrite_kept c s
  · split
    · split
      · split
        · exact takeField_kept _ _ c s
        · exact refuseRange_kept off s
      · exact passWrite_kept c s
    · split
      · exact (takeField_kept _ _ c s).trans (liveEffect_kept _ _ _)
      · exact refuseRange_kept off s

theorem guardedWrite_kept (off : Nat) (c : ProcCycle) (s : State) : Kept s (guardedWrite off c s) := by
  unfold guardedWrite
  split
  · exact passWrite_kept c s
  · exact raise_kept _ _ _ s

theorem argWrite_kept (c : ProcCycle) (s : State) : Kept s (argWrite c s) := by
  unfold argWrite
  split
  · exact passWrite_kept c s
  · exact (passWrite_kept c s).trans (Kept.of_same (by simp))

theorem commandTaken_kept (c : ProcCycle) (s : State) : Kept s (commandTaken c s) :=
  (passWrite_kept c s).trans (takeCommand_kept _ _)

theorem setupWrite_kept (off : Nat) (c : ProcCycle) (s : State) : Kept s (setupWrite off c s) := by
  unfold setupWrite
  split
  · exact commandTaken_kept c s
  · exact argWrite_kept c s
  · exact guardedWrite_kept off c s
  · exact guardedWrite_kept off c s
  · exact liveWrite_kept off c s
  · exact passWrite_kept c s

theorem ringWrite_kept (i : Fin 128) (w : Nat) (c : ProcCycle) (s : State) : Kept s (ringWrite i w c s) := by
  unfold ringWrite
  split
  · exact (passWrite_kept c s).trans (Kept.of_same (by simp))
  · exact (passWrite_kept c s).trans (Kept.of_same (by simp))
  · exact Kept.of_same (by simp)
  · exact Kept.of_same (by simp)

theorem writeEffect_kept (c : ProcCycle) (s : State) : Kept s (writeEffect c s) := by
  unfold writeEffect
  split
  · exact setupWrite_kept _ c s
  · exact ringWrite_kept _ _ c s
  · exact passWrite_kept c s
  · exact passWrite_kept c s

theorem showAround_kept {f : State → State} (hf : ∀ s, Kept s (f s)) (c : ProcCycle) (s : State) :
    Kept s (showAround c f s) := by
  have hshow : ∀ x, Kept x (showCycle c x) := fun x => Kept.of_same (by simp)
  unfold showAround
  split
  · exact (hshow s).trans (hf _)
  · exact (hf s).trans (hshow _)

theorem completeCycle_kept (c : ProcCycle) (s : State) : Kept s (completeCycle c s) := by
  unfold completeCycle
  split
  · exact Kept.of_same (by simp)
  · split
    · exact showAround_kept (writeEffect_kept c) c s
    · exact showAround_kept (fun x => Kept.of_same (by simp)) c s

theorem arriveCycle_kept (c : ProcCycle) (s : State) : Kept s (arriveCycle c s) := by
  unfold arriveCycle
  split
  · exact Kept.refl s
  · split
    · exact completeCycle_kept c s
    · exact Kept.of_same (by simp)

theorem serveWaiting_kept (s : State) : Kept s (serveWaiting s) := by
  unfold serveWaiting
  split
  · exact Kept.refl s
  · exact (Kept.of_same (s' := setWaitingCycle none s) (by simp)).trans (completeCycle_kept _ _)

theorem releaseCommand_kept (c : ProcCycle) (w : Word) (s : State) : Kept s (releaseCommand c w s) :=
  (Kept.of_same (s' := setHeldCommand none (setArg w s)) (by simp)).trans (showAround_kept (commandTaken_kept c) c _)

theorem straightCycle_kept (c : ProcCycle) (s : State) : Kept s (straightCycle c s) := by
  unfold straightCycle
  split
  · exact passWrite_kept c s
  · exact Kept.of_same (by simp)

theorem recordWordDone_kept (s : State) : Kept s (recordWordDone s) := Kept.of_same (by simp)

/-! ## The rows of the part -/

/-- The effect of a row that is no processor cycle and no edge of RST_N, with its stamp. -/
def partEffect : Instr → Option (Instant × (State → State))
  | .commandArgRead t => some (t, onCommandArgRead)
  | .lineDue t => some (t, onLineDue)
  | .lineFetchWord t => some (t, onLineFetchWord)
  | .decodeStage p => some (p.t, onDecodeStage p.upTo)
  | .lineBoundary t => some (t, onLineBoundary)
  | .starvationExpiry t => some (t, onStarvationExpiry)
  | .expressionStep t => some (t, onExpressionStep)
  | .endingDrain t => some (t, onEndingDrain)
  | .endingSettled t => some (t, onEndingSettled)
  | .stoppingComplete t => some (t, onStoppingComplete)
  | .setupLoadWord t => some (t, onSetupLoadWord)
  | .loaded t => some (t, onLoaded)
  | .scheduleDispatch t => some (t, onScheduleDispatch)
  | .dropLate t k => some (t, onDropLate k)
  | .pulseEnd t k first => some (t, onPulseEnd k first)
  | .minHoldExpiry t k => some (t, onMinHoldExpiry k)
  | .recoveryExpiry t k => some (t, onRecoveryExpiry k)
  | .keyResetTimerExpiry t k => some (t, onKeyResetTimerExpiry k)
  | .heatStep t => some (t, onHeatStep)
  | .moveFrameSent t => some (t, onMoveFrameSent)
  | .linkByteEndAbort t => some (t, onLinkByteEndAbort)
  | .ack t p depth => some (t, onAck p depth)
  | .nak t p depth => some (t, onNak p depth)
  | .replyTimeoutExpiry t => some (t, onReplyTimeoutExpiry)
  | .arrived t p depth => some (t, onArrived p depth)
  | .invalidFrame t b1 b2 b3 => some (t, onInvalidFrame b1 b2 b3)
  | .plrxFramingError t => some (t, onPlrxFramingError)
  | .plrxGapTimeout t => some (t, onPlrxGapTimeout)
  | .travelExpiry t p => some (t, onTravelExpiry p)
  | .reportWordWrite t => some (t, onReportWordWrite)
  | .statusWordWrite t => some (t, onStatusWordWrite)
  | .inhNChange t asserted => some (t, onInhNChange asserted)
  | .kdPeriodStart t => some (t, onKdPeriodStart)
  | .plrxByteReceived t b => some (t, onPlrxByteReceived b)
  | _ => none

/-- A row of the part is its effect between the start and the end of every row. -/
theorem exec_partEffect {c : Instr} {t : Instant} {e : State → State} (h : partEffect c = some (t, e)) (s : State) :
    exec c s = partRow t e s := by
  cases c <;> simp only [partEffect, Option.some.injEq, Prod.mk.injEq, reduceCtorEq] at h <;>
    (obtain ⟨rfl, rfl⟩ := h; rfl)

/-- What a row can be. -/
theorem exec_cases (c : Instr) (s : State) :
    (∃ t p, s.cycleOf c = some (t, p) ∧ exec c s = cycleRow t p s) ∨
      (∃ t e, partEffect c = some (t, e) ∧ exec c s = partRow t e s) ∨
      (∃ t, c = .rstNAssert t) ∨ ∃ t straps b, c = .rstNRelease t straps b := by
  cases c
  case rstNAssert t => exact .inr (.inr (.inl ⟨t, rfl⟩))
  case rstNRelease t straps b => exact .inr (.inr (.inr ⟨t, straps, b, rfl⟩))
  all_goals first
    | exact .inl ⟨_, _, rfl, rfl⟩
    | exact .inr (.inl ⟨_, _, rfl, rfl⟩)

theorem onHeatStep_kept (s : State) : Kept s (onHeatStep s) := by
  unfold onHeatStep
  split
  · exact (Kept.of_same (s' := { s with heat := { s.heat with next := s.heat.next + Config.heatPeriod } }) (by simp)).trans
      (Kept.foldl _ heatKey_kept _ _)
  · exact Kept.refl s

/-- The key records at the start of a KD period: every KD output takes up its applied duty (R122). -/
theorem onKdPeriodStart_key {s : State} (h : s.kdNext ≤ s.now) (k : Key) :
    (onKdPeriodStart s).key k = { s.key k with kd := s.appliedDuty k } := by
  simp [onKdPeriodStart, h, State.key]

/-- The number of FIRING keys hangs on the state of each key alone. -/
theorem firingKeys_congr {s s' : State} (h : ∀ k, (s'.key k).state = (s.key k).state) : s'.firingKeys = s.firingKeys := by
  have hmap : s'.keys.data.map KeyRec.state = s.keys.data.map KeyRec.state := by
    refine List.ext_getElem (by simp [Bank.len]) fun i hi _ => ?_
    have hi' : i < 88 := by simpa [Bank.len] using hi
    simpa [State.key, Bank.get] using h ⟨i, hi'⟩
  have hcount : ∀ l : List KeyRec,
      l.countP (fun r => decide (r.state = .firing)) = (l.map KeyRec.state).countP (fun st => decide (st = .firing)) :=
    fun l => by rw [List.countP_map]; rfl
  rw [State.firingKeys, hcount, hmap, ← hcount, State.firingKeys]

/-- At the start of a KD period no key changes in state or SOURCE. -/
theorem onKdPeriodStart_kept (s : State) : Kept s (onKdPeriodStart s) := by
  by_cases h : s.kdNext ≤ s.now
  · refine Kept.of_keys (fun hf => ?_) (fun hl k => ?_) (by simp)
    · have hfire : (onKdPeriodStart s).fire = s.fire := by simp
      rw [State.firingOk, hfire, firingKeys_congr (s := s) fun k => by rw [onKdPeriodStart_key h]]
      exact hf
    · rw [onKdPeriodStart_key h]
      exact hl k
  · rw [onKdPeriodStart, if_neg h]
    exact Kept.refl s

/-! ## Every row -/

theorem partEffect_kept {c : Instr} {t : Instant} {e : State → State} (h : partEffect c = some (t, e)) (s : State) :
    Kept s (e s) := by
  cases c <;> simp only [partEffect, Option.some.injEq, Prod.mk.injEq, reduceCtorEq] at h <;> obtain ⟨rfl, rfl⟩ := h
  case commandArgRead =>
    unfold onCommandArgRead
    split
    · exact ((setOwner_kept none s).trans (releaseCommand_kept _ _ _)).trans (serveWaiting_kept _)
    · exact Kept.refl s
  case lineFetchWord =>
    unfold onLineFetchWord
    split
    · refine Kept.trans ?_ (serveWaiting_kept _)
      split
      · exact Kept.of_same (by simp)
      · exact setOwner_kept none s
    · exact Kept.refl s
  case decodeStage p =>
    unfold onDecodeStage
    split
    · exact Kept.refl s
    · split
      · exact decodeOn_kept _ _ s
      · exact Kept.refl s
  case starvationExpiry =>
    unfold onStarvationExpiry
    split
    · exact Kept.refl s
    · split
      · exact enterStopping_kept _ s
      · exact Kept.refl s
  case endingDrain =>
    unfold onEndingDrain
    split
    · exact (pedalsToZero_kept s).trans (Kept.of_same (by simp))
    · exact Kept.refl s
  case setupLoadWord =>
    unfold onSetupLoadWord
    split
    · refine Kept.trans ?_ (serveWaiting_kept _)
      split
      · exact (setOwner_kept none s).trans (loadWord_kept _ _ _)
      · exact setOwner_kept none s
    · exact Kept.refl s
  case scheduleDispatch =>
    unfold onScheduleDispatch
    split
    · exact dispatchLoop_kept _ s
    · exact Kept.refl s
  case dropLate k =>
    unfold onDropLate
    split
    · exact Kept.refl s
    · split
      · exact dropWaiting_kept k s
      · exact Kept.refl s
  case pulseEnd k first =>
    unfold onPulseEnd
    split
    · rename_i h
      exact pulseEnds_kept first (by rw [h.1]; decide)
    · exact Kept.refl s
  case minHoldExpiry k =>
    unfold onMinHoldExpiry
    split
    · rename_i h
      exact minHoldOut_kept (by rw [h.1]; decide)
    · exact Kept.refl s
  case recoveryExpiry k =>
    unfold onRecoveryExpiry
    split
    · rename_i h
      exact becomesFree_kept (.inl h.1)
    · exact Kept.refl s
  case keyResetTimerExpiry k =>
    unfold onKeyResetTimerExpiry
    split
    · rename_i h
      exact becomesFree_kept (.inr h.1)
    · exact Kept.refl s
  case heatStep => exact onHeatStep_kept s
  case kdPeriodStart => exact onKdPeriodStart_kept s
  case moveFrameSent =>
    unfold onMoveFrameSent
    split
    · split
      · exact setLink_kept _ s
      · exact Kept.refl s
    all_goals exact Kept.refl s
  case linkByteEndAbort =>
    unfold onLinkByteEndAbort
    split
    · split
      · exact (setLink_kept _ s).trans (linkSend_kept _)
      · exact Kept.refl s
    all_goals exact Kept.refl s
  case replyTimeoutExpiry =>
    unfold onReplyTimeoutExpiry
    split
    · split
      · exact retransfer_kept _ s
      · exact Kept.refl s
    all_goals exact Kept.refl s
  case plrxGapTimeout =>
    unfold onPlrxGapTimeout
    split
    · exact setRx_kept _ _ s
    · exact Kept.refl s
  case travelExpiry p =>
    unfold onTravelExpiry
    split
    · exact Kept.refl s
    · split
      · exact faultPedal_kept _ _ s
      · exact Kept.refl s
  case reportWordWrite =>
    unfold onReportWordWrite
    split
    · refine Kept.trans ?_ (serveWaiting_kept _)
      split
      · exact ((setOwner_kept none s).trans (partWrite_kept _ _ _)).trans (recordWordDone_kept _)
      · exact (setOwner_kept none s).trans (partWrite_kept _ _ _)
    · exact Kept.refl s
  case statusWordWrite =>
    unfold onStatusWordWrite
    split
    · exact ((setOwner_kept none s).trans (partWrite_kept _ _ _)).trans (serveWaiting_kept _)
    · exact Kept.refl s
  case plrxFramingError => exact setRx_kept _ _ s
  case plrxByteReceived => exact assemble_kept _ s
  case ack => exact assemble_kept _ s
  case nak => exact assemble_kept _ s
  case arrived => exact assemble_kept _ s
  case invalidFrame => exact assemble_kept _ s
  all_goals exact Kept.of_same (by simp)

theorem advance_kept (t : Instant) (s : State) : Kept s (advance t s) := Kept.of_same (by simp)

theorem grantPort_kept (s : State) : Kept s (grantPort s) := Kept.of_same (by simp)

theorem drivePins_kept (s : State) : Kept s (drivePins s) := Kept.of_same (by simp)

theorem partRow_kept {t : Instant} {e : State → State} (he : ∀ x, Kept x (e x)) {s s' : State}
    (h : partRow t e s = .next s') : Kept s s' := by
  have hstart := (advance_kept t s).trans (grantPort_kept _)
  unfold partRow at h
  split at h <;> injection h with h <;> subst h
  · exact advance_kept t s
  · exact (hstart.trans (he _)).trans (drivePins_kept _)

theorem cycleRow_kept {t : Instant} {p : ProcCycle} {s s' : State} (h : cycleRow t p s = .next s') : Kept s s' := by
  have hstart := (advance_kept t s).trans (grantPort_kept _)
  unfold cycleRow at h
  split at h
  · injection h with h
    subst h
    exact (advance_kept t s).trans (straightCycle_kept p _)
  · split at h <;> injection h with h <;> subst h
    · exact ((advance_kept t s).trans (arriveCycle_kept p _)).trans (drivePins_kept _)
    · exact (hstart.trans (arriveCycle_kept p _)).trans (drivePins_kept _)

theorem passHeldCycles_kept (s : State) : Kept s (passHeldCycles s) := by
  have hwait : Kept s (match s.arb.waiting with
      | none => s
      | some c => straightCycle c s) := by
    split
    · exact Kept.refl s
    · exact straightCycle_kept _ s
  unfold passHeldCycles
  dsimp only
  split
  · exact hwait
  · exact hwait.trans (straightCycle_kept _ _)

/-- A state whose blocks other than the memory stand at their pin-reset values, but for the keys' timers. -/
theorem kept_of_reset {s s' : State} (hm : s'.mem = s.mem) (hs : s'.sched = []) (hp : s'.pedals = {}) (hf : s'.fire = {})
    {r : KeyRec} (hk : s'.keys = Bank.replicate 88 r) (hr : r.state = .rest) (ht : r.source = .timer) : Kept s s' := by
  constructor
  · simp [State.memOk, hm]
  · simp [hs, scheduleOk]
  · simp [State.sostenutoOk, hp]
  · simp [State.firingOk, State.firingKeys, hf, hk, Bank.replicate, hr]
  · simp [State.locksOk, State.key, hk, hr, ht]

theorem rstNAssert_kept {t : Instant} {s s' : State} (h : exec (.rstNAssert t) s = .next s') : Kept s s' := by
  have h : execRstNAssert t s = .next s' := h
  unfold execRstNAssert at h
  split at h <;> injection h with h <;> subst h
  · exact advance_kept t s
  · exact ((advance_kept t s).trans (passHeldCycles_kept _)).trans (kept_of_reset rfl rfl rfl rfl rfl rfl rfl)

theorem rstNRelease_kept {t : Instant} {straps : BitVec 4} {b : Bool} {s s' : State}
    (h : exec (.rstNRelease t straps b) s = .next s') : Kept s s' := by
  have h : execRstNRelease t straps b s = .next s' := h
  unfold execRstNRelease at h
  split at h <;> injection h with h <;> subst h
  · exact kept_of_reset rfl rfl rfl rfl rfl rfl rfl
  · exact advance_kept t s

/-- Every row keeps the five invariants. -/
theorem exec_kept {c : Instr} {s s' : State} (h : exec c s = .next s') : Kept s s' := by
  rcases exec_cases c s with ⟨t, p, -, hrow⟩ | ⟨t, e, he, hrow⟩ | ⟨t, rfl⟩ | ⟨t, straps, b, rfl⟩
  · exact cycleRow_kept (hrow ▸ h)
  · exact partRow_kept (partEffect_kept he) (hrow ▸ h)
  · exact rstNAssert_kept h
  · exact rstNRelease_kept h

/-- A step is the row at the front of the queue, run on the rest, or idles. -/
theorem step_cases {s s' : State} (h : step s = .next s') :
    s' = s ∨ ∃ c rest, s.pending = c :: rest ∧ exec c { s with pending := rest } = .next s' := by
  unfold step at h
  split at h
  · exact .inl (by injection h with h; exact h.symm)
  · rename_i c rest hs
    exact .inr ⟨c, rest, hs, h⟩

theorem step_kept {s s' : State} (h : step s = .next s') : Kept s s' := by
  rcases step_cases h with rfl | ⟨c, rest, -, h⟩
  · exact Kept.refl s'
  · exact (Kept.of_same (s' := { s with pending := rest }) (by simp)).trans (exec_kept h)

/-! ## The outputs (R182, R166, R169) -/

theorem drivePins_outputsOk (s : State) : (drivePins s).outputsOk := ⟨rfl, rfl⟩

/-- The outputs follow conditions that the passing of time does not touch. -/
theorem advance_outputsOk {t : Instant} {s : State} (h : s.outputsOk) : (advance t s).outputsOk := h

theorem straightCycle_outputsOk {c : ProcCycle} {s : State} (h : s.outputsOk) : (straightCycle c s).outputsOk := by
  unfold straightCycle
  split <;> exact h

theorem inReset_outputsOk (s : State) : s.inReset.outputsOk := ⟨rfl, rfl⟩

theorem released_outputsOk (straps : BitVec 4) (b : Bool) (s : State) : (s.released straps b).outputsOk := ⟨rfl, rfl⟩

theorem exec_outputsOk {c : Instr} {s s' : State} (hs : s.outputsOk) (h : exec c s = .next s') : s'.outputsOk := by
  rcases exec_cases c s with ⟨t, p, -, hrow⟩ | ⟨t, e, -, hrow⟩ | ⟨t, rfl⟩ | ⟨t, straps, b, rfl⟩
  · rw [hrow, cycleRow] at h
    split at h
    · injection h with h
      exact h ▸ straightCycle_outputsOk (advance_outputsOk hs)
    · split at h <;> injection h with h <;> exact h ▸ drivePins_outputsOk _
  · rw [hrow, partRow] at h
    split at h <;> injection h with h <;> subst h
    · exact advance_outputsOk hs
    · exact drivePins_outputsOk _
  · have h : execRstNAssert t s = .next s' := h
    unfold execRstNAssert at h
    split at h <;> injection h with h <;> subst h
    · exact advance_outputsOk hs
    · exact inReset_outputsOk _
  · have h : execRstNRelease t straps b s = .next s' := h
    unfold execRstNRelease at h
    split at h <;> injection h with h <;> subst h
    · exact released_outputsOk _ _ _
    · exact advance_outputsOk hs

end Sys2Proof.Machine

open Sys2Proof Sys2Proof.Machine

/-- Settles O55: memory changes by writes alone, and each keeps the canonical form. -/
theorem everyStepKeepsMemoryCanonical : Obligations.every_step_keeps_memory_canonical :=
  fun _ _ hs h => (step_kept h).mem hs

/-- Settles O56: every row but those that leave RST_N asserted ends by driving the two outputs, and the others touch nothing
that the outputs follow. -/
theorem everyStepKeepsTheOutputsExact : Obligations.every_step_keeps_the_outputs_exact := by
  intro s s' hs h
  rcases step_cases h with rfl | ⟨c, rest, -, h⟩
  · exact hs
  · exact exec_outputsOk (s := { s with pending := rest }) hs h

/-- Settles O57: an entry is inserted in order, with room, and a MOVE only where its pedal has none; everything else takes
entries out. -/
theorem everyStepKeepsTheScheduleInOrder : Obligations.every_step_keeps_the_schedule_in_order :=
  fun _ _ hs h => (step_kept h).sched hs

/-- Settles O58: the set is filled at an arrival of depth 8 or more alone, and emptied by a fault and by every lower arrival. -/
theorem everyStepKeepsTheSostenutoRule : Obligations.every_step_keeps_the_sostenuto_rule :=
  fun _ _ hs h => (step_kept h).sost hs

/-- Settles O59: a grant counts the key that it takes to FIRING, and each way out of FIRING takes the key out of the count. -/
theorem everyStepKeepsTheFiringCount : Obligations.every_step_keeps_the_firing_count :=
  fun _ _ hs h => (step_kept h).firing hs

/-- Settles O60: a key is locked, unlocked and put at REST together with its SOURCE, and no other row moves a LOCKED key. -/
theorem everyStepKeepsLocksWithSources : Obligations.every_step_keeps_locks_with_sources :=
  fun _ _ hs h => (step_kept h).locks hs
end

section
/-! PROOF. The queue, reset, and the invariants at reset; and a read cycle in the place of a held COMMAND write, which the
statement about memory does not exclude. -/

namespace Sys2Proof.Machine

@[simp] theorem reset_key (k : Key) : State.reset.key k = { timer := some 50000 } := by
  simp [State.key, State.reset, State.released, State.inReset, Config.resetTimer]

@[simp] theorem reset_pedal (p : Pedal) : State.reset.pedals.pedal p = {} := by
  simp [PedalUnit.pedal, State.reset, State.released, State.inReset]

/-- Out of reset, with the part's read of COMMAND_ARG on the port for a held cycle that is a read: no row reaches such a
state. -/
def readHeldAsCommand : State :=
  { rst := false
    arb := { owner := some .argRead }
    shadow := { held := some { isWrite := false, wa := 0, lanes := .both, data := 5
                               order := { cueFirst := true, portFirst := true } } } }

/-- The held cycle passes to memory as a write whatever its direction (R169). -/
theorem readHeldAsCommand_passes :
    ∃ s', exec (.commandArgRead 0) readHeldAsCommand = .next s' ∧ readByte s'.mem 0 = 5 := ⟨_, rfl, by decide⟩

end Sys2Proof.Machine

open Sys2Proof Sys2Proof.Machine

/-- Settles O1: both parts are the branches of `step`. -/
theorem stepTakesTheFrontCommandOrIdles : Obligations.step_takes_the_front_command_or_idles :=
  ⟨fun _ _ _ => rfl, fun s h => by rw [step, h]⟩

/-- Settles O2: each part of `State.reset` is the default of its record, or what `State.released` gives it; the banks are read
index by index. -/
theorem resetHoldsThePinResetValues : Obligations.reset_holds_the_pin_reset_values := by
  have hslots (i : Fin 128) : State.reset.ring.slots.get i = {} := Bank.get_replicate _ i
  have hrows (i : Fin 112) : State.reset.track.rows.get i = {} := Bank.get_replicate _ i
  have hserials (k : Key) : State.reset.track.serials.get k = 0 := Bank.get_replicate _ k
  have hclasses (i : Fin 256) : State.reset.report.classes.get i = none := Bank.get_replicate _ i
  have hkd (k : Key) (e : Nat) : State.reset.kdOnAt k e = false := by simp [State.kdOnAt]
  unfold Obligations.reset_holds_the_pin_reset_values
  simp only [hslots, hrows, hserials, hclasses, hkd, reset_key, reset_pedal]
  simp [State.reset, State.released, State.inReset, Config.heatPeriod, Config.kdPeriod, statusOffsets]

/-- Settles O54: the memory, the schedule and the sostenuto set are empty, NTC_N and PWAIT_N are released, and no key is
FIRING or LOCKED. -/
theorem invariantsHoldAtReset : Obligations.invariants_hold_at_reset := by
  refine ⟨⟨.nil, ?mem⟩, ⟨rfl, rfl⟩, ⟨.nil, ?sched, ?moves⟩, fun _ => rfl, ?firing, ?locks⟩
  case mem => exact fun _ h => absurd h (by simp [State.reset, State.released, State.inReset])
  case sched => decide
  case moves => exact fun p => Nat.zero_le _
  case firing =>
    refine (List.countP_eq_zero.mpr fun r hr => ?_).symm
    rw [List.eq_of_mem_replicate hr]
    decide
  case locks => simp [State.locksOk]

/-- Refutes O3: in `readHeldAsCommand` no cycle stores to any byte and the access on the port is a read, yet the row
COMMAND_ARG_READ writes 5 at byte 0. -/
theorem not_memoryChangesOnlyWhereACycleStores : ¬ Obligations.memory_changes_only_where_a_cycle_stores := by
  rintro ⟨-, hpart, -⟩
  obtain ⟨s', hrow, hmem⟩ := hpart (.commandArgRead 0) readHeldAsCommand rfl
  obtain ⟨s'', hrow', hfive⟩ := readHeldAsCommand_passes
  obtain rfl : s'' = s' := by
    injection hrow'.symm.trans hrow
  have hsame := hmem 0 ?cycles ?access
  case cycles =>
    rintro p (hp | hp)
    · cases hp
    · cases hp
      rfl
  case access =>
    rintro acc hacc
    cases hacc
    rfl
  rw [hfive] at hsame
  exact absurd hsame (by decide)
end

section
/-! PROOF. Processor cycles that pass to memory (R162, R163, R166): at the open port, and behind a part access. -/

namespace Sys2Proof.Machine

/-- A frame may be taken from the state that a row's effect starts from. -/
theorem withBook_seen {s y : State} {t : Instant} (hy : Seen s t y) (z : State) : s.withBook z = y.withBook z := by
  rw [hy]
  rfl

/-- The parts of a frame that no row moves on. -/
@[simp] theorem withBook_parts (s z : State) :
    (s.withBook z).now = z.now ∧ (s.withBook z).pending = s.pending ∧ (s.withBook z).rst = s.rst ∧
      (s.withBook z).inh = s.inh ∧ (s.withBook z).ntc = z.ntc ∧ (s.withBook z).pwait = z.pwait ∧
      (s.withBook z).spb = s.spb ∧ (s.withBook z).pd = s.pd ∧ (s.withBook z).kdNext = s.kdNext ∧
      (s.withBook z).mem = s.mem ∧ (s.withBook z).ring = s.ring ∧ (s.withBook z).track = s.track ∧
      (s.withBook z).expr = s.expr ∧ (s.withBook z).sched = s.sched ∧ (s.withBook z).fire = s.fire ∧
      (s.withBook z).keys = s.keys ∧ (s.withBook z).heat = s.heat ∧ (s.withBook z).pedals = s.pedals ∧
      (s.withBook z).cue = s.cue ∧ (s.withBook z).updates = z.updates ∧
      (s.withBook z).arb = { s.arb with owner := z.arb.owner } ∧
      (s.withBook z).clock = { s.clock with exprCount := z.clock.exprCount } ∧
      (s.withBook z).shadow = { s.shadow with result := z.shadow.result } ∧
      (s.withBook z).report = { s.report with
        queue := z.report.queue, current := z.report.current, lost := z.report.lost } :=
  ⟨rfl, rfl, rfl, rfl, rfl, rfl, rfl, rfl, rfl, rfl, rfl, rfl, rfl, rfl, rfl, rfl, rfl, rfl, rfl, rfl, rfl, rfl, rfl, rfl⟩

/-- A write that passes at the open port, whatever the Cue Unit's KIND may be but BUS. -/
theorem frame_of_pass {s y : State} {t : Instant} (c : ProcCycle) (hy : Seen s t y) :
    drivePins (passWrite c y) =
      { s.withBook (drivePins (passWrite c y)) with mem := writeLanes s.mem c.addr c.lanes c.data } := by
  rw [hy]
  rfl

theorem frame_of_read {s y : State} {t : Instant} (c : ProcCycle) (hy : Seen s t y) :
    drivePins (setPd (laneData c.lanes (readWord y.mem c.addr)) y) =
      { s.withBook (drivePins (setPd (laneData c.lanes (readWord y.mem c.addr)) y)) with
        pd := laneData c.lanes (readWord s.mem c.addr) } := by
  rw [hy]
  rfl

/-- A read completes with the word that memory holds, unseen by any BUS cue. -/
theorem completeCycle_read {c : ProcCycle} {y : State} (hc : c.isWrite = false) (hb : y.noBusCue) :
    completeCycle c y = setPd (laneData c.lanes (readWord y.mem c.addr)) y := by
  have hheld : y.holdsCommand c = false := by simp [State.holdsCommand, hc]
  unfold completeCycle
  rw [if_neg (by simp [hheld]), if_neg (by simp [hc])]
  exact showAround_noBusCue _ _ hb ((noBusCue_congr (by simp)).mpr hb)

/-- A write that is neither to the page nor to the roll ring passes, unseen by any BUS cue. -/
theorem completeCycle_passes {c : ProcCycle} {y : State} (hc : c.isWrite = true)
    (hclass : y.classify c.addr = .ordinary ∨ y.classify c.addr = .reportRing) (hb : y.noBusCue) :
    completeCycle c y = passWrite c y := by
  have heffect : writeEffect c y = passWrite c y := by
    rcases hclass with h | h <;> simp [writeEffect, h]
  have hheld : y.holdsCommand c = false := by
    rcases hclass with h | h <;> simp [State.holdsCommand, h]
  rw [completeCycle_plain c hc hheld hb (by rw [heffect]; exact (noBusCue_congr (by simp)).mpr hb), heffect]

/-! ## Behind a part access (R166) -/

/-- A cycle that needs the port and finds it owned waits. -/
theorem cycleRow_waits {s : State} {p : ProcCycle} {acc : Access} (hr : s.rst = false) (ho : s.arb.owner = some acc)
    (hw : s.arb.waiting = none) (hh : s.shadow.held = none) (hpass : (p.isWrite && s.withholds p) = false)
    (hheld : s.holdsCommand p = false) (t : Instant) :
    cycleRow t p s = .next (drivePins (setWaitingCycle (some p) (advance t s))) := by
  have hpass' : (p.isWrite && (advance t s).withholds p) = false := hpass
  have hheld' : (advance t s).holdsCommand p = false := hheld
  have harrive : arriveCycle p (advance t s) = setWaitingCycle (some p) (advance t s) := by
    unfold arriveCycle
    simp [ho, hw, hh, hpass', hheld']
  unfold cycleRow
  rw [hr, grantPort_owned (acc := acc) (by simpa using ho), harrive]
  simp

/-- What a completed access leaves: memory as given, the port free, the waiting cycle still to be served. -/
def accessDone (m : Memory) (s : State) : State := { s with mem := m, arb := { s.arb with owner := none } }

/-- A part access that makes nothing but a memory of `m` (its word is dropped, or is a word written), by its row. -/
def accessMakes (s : State) (t : Instant) (c : Instr) (acc : Access) (m : Memory) : Prop :=
  (∃ slot a, c = .lineFetchWord t ∧ acc = .lineFetch slot a false ∧ m = s.mem) ∨
    (∃ off, c = .setupLoadWord t ∧ acc = .setupLoad off false ∧ m = s.mem) ∨
    (∃ a w, c = .reportWordWrite t ∧ acc = .reportWord a w false ∧ m = writeWord s.mem a w) ∨
    (∃ off w, c = .statusWordWrite t ∧ acc = .statusWord off w ∧ m = writeWord s.mem (s.pageBase + off) w)

/-- Such an access completes and the waiting cycle is served in the same row. -/
theorem exec_accessMakes {s : State} {t : Instant} {c : Instr} {acc : Access} {m : Memory} (hr : s.rst = false)
    (ho : s.arb.owner = some acc) (h : accessMakes s t c acc m) :
    exec c s = .next (drivePins (serveWaiting (accessDone m (advance t s)))) := by
  have ho' : (advance t s).arb.owner = some acc := ho
  rcases h with ⟨slot, a, rfl, rfl, rfl⟩ | ⟨off, rfl, rfl, rfl⟩ | ⟨a, w, rfl, rfl, rfl⟩ | ⟨off, w, rfl, rfl, rfl⟩
  · refine (partRow_owned hr ho).trans ?_
    simp only [onLineFetchWord, ho']
    rfl
  · refine (partRow_owned hr ho).trans ?_
    simp only [onSetupLoadWord, ho']
    rfl
  · refine (partRow_owned hr ho).trans ?_
    simp only [onReportWordWrite, ho']
    rfl
  · refine (partRow_owned hr ho).trans ?_
    simp only [onStatusWordWrite, ho']
    rfl

/-- The port of a waiting cycle that has been taken off it. -/
theorem serveWaiting_of_waiting {s : State} {p : ProcCycle} (h : s.arb.waiting = some p) :
    serveWaiting s = completeCycle p (setWaitingCycle none s) := by
  rw [serveWaiting, h]

/-! ## Setup writes in IDLE (R163) -/

theorem ite_ne {α : Type} {P : Prop} [Decidable P] {a b x : α} (ha : a ≠ x) (hb : b ≠ x) :
    (if P then a else b) ≠ x := by split <;> assumption

/-- COMMAND is the only word of its class. -/
theorem pageWord_ne_command {off : Nat} (h : off ≠ offCommand) : pageWord off ≠ .command := by
  unfold pageWord
  rw [if_neg h]
  repeat' refine ite_ne (by simp) ?_
  simp

/-- In IDLE a write of any word of the page but COMMAND passes and does nothing else. -/
theorem setupWrite_idle {s : State} {off : Nat} (hidle : s.clock.state = .idle) (hoff : off ≠ offCommand)
    (c : ProcCycle) : setupWrite off c s = passWrite c s := by
  unfold setupWrite
  split
  case h_1 h => exact absurd h (pageWord_ne_command hoff)
  case h_2 => exact if_pos hidle
  case h_3 => exact if_pos hidle
  case h_4 => exact if_pos hidle
  case h_5 => exact if_pos hidle
  case h_6 => rfl

theorem watching_idle {s : State} (h : s.clock.state = .idle) : s.watching = false := by simp [State.watching, h]

end Sys2Proof.Machine

open Sys2Proof Sys2Proof.Machine

/-- Settles O5: at the open port the cycle completes at once, by `completeCycle_passes` or `completeCycle_read`. -/
theorem ordinaryCyclesPassUnaltered : Obligations.ordinary_cycles_pass_unaltered := by
  intro t o wa lanes s hp hb
  refine ⟨fun data hclass => ?_, ?_⟩
  · obtain ⟨y, hy, -, hrow⟩ := cycleRow_seen (t := t) (c := ⟨true, wa, lanes, data, o⟩) hp
    have hclass' := hclass
    rw [← seen_classify hy] at hclass'
    rw [completeCycle_passes rfl hclass' (seen_noBusCue hy hb)] at hrow
    exact ⟨_, hrow, frame_of_pass ⟨true, wa, lanes, data, o⟩ hy⟩
  · obtain ⟨y, hy, -, hrow⟩ := cycleRow_seen (t := t) (c := ⟨false, wa, lanes, 0, o⟩) hp
    rw [completeCycle_read rfl (seen_noBusCue hy hb)] at hrow
    exact ⟨_, hrow, frame_of_read ⟨false, wa, lanes, 0, o⟩ hy⟩

/-- Settles O4: the cycle waits by `cycleRow_waits`; once the access completes (`exec_accessMakes`) it is served as a cycle at
the free port. -/
theorem cycleWaitsBehindAPartAccess : Obligations.cycle_waits_behind_a_part_access := by
  refine ⟨?waits, ?served⟩
  case waits =>
    intro c s t p acc hc hr ho hw hh hpass hheld
    refine ⟨_, (exec_cycleOf hc).trans (cycleRow_waits hr ho hw hh hpass hheld t), rfl, ?_⟩
    apply state_ext
    case arb => apply arbiter_ext <;> simp [ho]
    all_goals rfl
  case served =>
    intro c s t p acc m hr ho hw hh hb haccess
    have hrow := exec_accessMakes hr ho haccess
    rw [serveWaiting_of_waiting (s := accessDone m (advance t s)) hw] at hrow
    refine ⟨fun hread => ?_, fun hwrite hclass => ?_⟩
    · rw [completeCycle_read (y := setWaitingCycle none (accessDone m (advance t s))) hread hb] at hrow
      exact ⟨_, hrow, by simp [accessDone, hh], rfl⟩
    · rw [completeCycle_passes (y := setWaitingCycle none (accessDone m (advance t s))) hwrite hclass hb] at hrow
      exact ⟨_, hrow, by simp [accessDone, hh], rfl⟩

/-- Settles O6: in IDLE every word of the page but COMMAND has the effect `passWrite`, and the Cue Unit does not watch. -/
theorem setupWritesInIdlePassUnwatched : Obligations.setup_writes_in_idle_pass_unwatched := by
  intro c s t p off hc hw hp hidle hclass hoff
  obtain ⟨y, hy, -, hrow⟩ := cycleRow_seen (t := t) hp
  have hyidle : y.clock.state = .idle := (seen_clock hy).1.trans hidle
  have hyclass : y.classify p.addr = .setup off := (seen_classify hy _).trans hclass
  have hheld : y.holdsCommand p = false := by simp [State.holdsCommand, hyclass, hoff]
  have heffect : writeEffect p y = passWrite p y := by rw [writeEffect_setup hyclass, setupWrite_idle hyidle hoff]
  rw [completeCycle_write p hw hheld, showAround_unwatched p _ (watching_idle hyidle), heffect] at hrow
  · exact ⟨_, (exec_cycleOf hc).trans hrow, frame_of_pass p hy⟩
  · rw [heffect]
    exact watching_idle hyidle
end

section
/-! PROOF. Setup writes outside IDLE (R163 to R165, R175, R181, R182): withheld, checked during a load, or taken. -/

namespace Sys2Proof.Machine

/-! ## Frames -/

/-- The records of which a row may have moved a part on before its effect. -/
theorem seen_clock_eq {s y : State} {t : Instant} (hy : Seen s t y) :
    y.clock = { s.clock with exprCount := y.clock.exprCount } := by
  rw [hy]
  rfl

theorem seen_arb_eq {s y : State} {t : Instant} (hy : Seen s t y) : y.arb = { s.arb with owner := y.arb.owner } := by
  rw [hy]
  rfl

theorem seen_shadow_eq {s y : State} {t : Instant} (hy : Seen s t y) :
    y.shadow = { s.shadow with result := y.shadow.result } := by
  rw [hy]
  rfl

/-! ## A write that is withheld (R164) -/

/-- A record raised, and nothing else. -/
theorem frame_of_raise {s y : State} {t : Instant} (hy : Seen s t y) (k : ReportKind) (a d : Word) :
    drivePins (raise k a d y) = s.withBook (drivePins (raise k a d y)) := by
  apply state_ext
  case clock => simpa using seen_clock_eq hy
  case arb => simpa using seen_arb_eq hy
  case shadow => simpa using seen_shadow_eq hy
  case report => apply report_ext <;> simp [seen_parts hy]
  all_goals simp [seen_parts hy]

theorem seen_raised {s y : State} {t : Instant} (hy : Seen s t y) (k : ReportKind) (a d : Word) :
    s.raised (drivePins (raise k a d y)) k a d :=
  raise_raised (y := y) (by simp [seen_parts hy]) (by simp [seen_parts hy])

/-- What decides about a LIVE write is the same in the state that the row's effect starts from. -/
theorem seen_live {s y : State} {t : Instant} (hy : Seen s t y) :
    (∀ off c, y.mergedField off c = s.mergedField off c) ∧ (∀ off w, y.liveOk off w = s.liveOk off w) ∧
      y.validating = s.validating ∧ ∀ off, y.alreadyRead off = s.alreadyRead off := by
  rw [hy]
  exact ⟨fun _ _ => rfl, fun _ _ => rfl, rfl, fun _ => rfl⟩

/-- A write to the page that is withheld with a report, whoever owns the port, unseen by any BUS cue. -/
theorem cycleRow_refused {s : State} {t : Instant} {p : ProcCycle} {off : Nat} {k : ReportKind} (hr : s.rst = false)
    (hw : s.arb.waiting = none) (hh : s.shadow.held = none) (hb : s.noBusCue) (hidle : s.clock.state ≠ .idle)
    (hp : p.isWrite = true) (hclass : s.classify p.addr = .setup off)
    (hwithheld : ∀ y, Seen s t y → y.withholds p = true)
    (heffect : ∀ y, Seen s t y → setupWrite off p y = raise k 0 (toWord off) y) :
    ∃ s', cycleRow t p s = .next s' ∧ s.raised s' k 0 (toWord off) ∧ s' = s.withBook s' := by
  obtain ⟨y, hy, hrow⟩ := cycleRow_withheld (t := t) (p := p) hr hw hh
  have hyidle : y.clock.state ≠ .idle := by rw [(seen_clock hy).1]; exact hidle
  have hwrite : writeEffect p y = raise k 0 (toWord off) y := by
    rw [writeEffect_setup ((seen_classify hy _).trans hclass), heffect y hy]
  have hby : y.noBusCue := seen_noBusCue hy hb
  have hrow := hrow hp (hwithheld y hy)
  rw [completeCycle_plain p hp (holdsCommand_outside_idle p hyidle) hby, hwrite] at hrow
  · exact ⟨_, hrow, seen_raised hy k 0 _, frame_of_raise hy k 0 _⟩
  · rw [hwrite]
    exact (noBusCue_congr (by simp)).mpr hby

/-- Outside IDLE a LOCKED or part-written word is not for the processor to write (R163, R164). -/
theorem cycleRow_guarded {s : State} {t : Instant} {p : ProcCycle} {off : Nat} (hr : s.rst = false)
    (hw : s.arb.waiting = none) (hh : s.shadow.held = none) (hb : s.noBusCue) (hidle : s.clock.state ≠ .idle)
    (hp : p.isWrite = true) (hclass : s.classify p.addr = .setup off)
    (hword : pageWord off = .locked ∨ pageWord off = .partWritten) :
    ∃ s', cycleRow t p s = .next s' ∧ s.raised s' .withheld 0 (toWord off) ∧ s' = s.withBook s' := by
  apply cycleRow_refused hr hw hh hb hidle hp hclass <;> intro y hy <;>
    have hyidle : y.clock.state ≠ .idle := by rw [(seen_clock hy).1]; exact hidle
  · have hyclass := (seen_classify hy p.addr).trans hclass
    rcases hword with h | h <;> simp [State.withholds, hyclass, h, hyidle]
  · rcases hword with h | h <;> simp [setupWrite, h, guardedWrite, hyidle]

end Sys2Proof.Machine

open Sys2Proof Sys2Proof.Machine

/-- Settles O7: LOCKED and part-written words by `cycleRow_guarded`; a LIVE word out of range is withheld with its own report
(`cycleRow_refused`). -/
theorem guardedAndOutOfRangeWritesAreWithheld : Obligations.guarded_and_out_of_range_writes_are_withheld := by
  intro s hr hw hh hb hidle
  have hpage (off : BitVec 12) (o : BusOrder) (lanes : Lanes) (data : Word) (heven : off.toNat % 2 = 0) :
      s.classify (s.pageWrite off.toNat lanes data o).addr = .setup off.toNat := by
    rw [pageWrite_addr s _ _ _ _ off.isLt heven, classify_page s _ off.isLt]
  refine ⟨?_, ?_, ?_⟩
  · intro t o off lanes data hwf
    obtain ⟨heven, hword⟩ : off.toNat % 2 = 0 ∧ pageWord off.toNat = .locked := by simpa [Instr.wellFormed] using hwf
    exact cycleRow_guarded hr hw hh hb hidle rfl (hpage off o lanes data heven) (.inl hword)
  · intro t o off lanes data hwf
    obtain ⟨heven, hword⟩ : off.toNat % 2 = 0 ∧ pageWord off.toNat = .partWritten := by
      simpa [Instr.wellFormed] using hwf
    exact cycleRow_guarded hr hw hh hb hidle rfl (hpage off o lanes data heven) (.inr hword)
  · intro c t p off hc hp hclass hlive hval hok
    rw [exec_cycleOf hc]
    apply cycleRow_refused hr hw hh hb hidle hp hclass <;> intro y hy <;>
      obtain ⟨hmerged, hlok, hyval, -⟩ := seen_live hy <;>
      have hyidle : y.clock.state ≠ .idle := by rw [(seen_clock hy).1]; exact hidle
    · have hyclass := (seen_classify hy p.addr).trans hclass
      simp [State.withholds, hyclass, hlive, hyidle, hyval, hval, hlok, hmerged, hok]
    · simp [setupWrite, hlive, liveWrite, hyidle, hyval, hval, hlok, hmerged, hok, refuseRange]
end

section
/-! PROOF. LIVE writes that are taken (R165, R102, R181, R182), and those that a load meets (R175). -/

namespace Sys2Proof.Machine

/-! ## The cases of a LIVE write -/

/-- A LIVE write in range is taken, and the blocks that own the field follow (R165). -/
theorem liveWrite_taken {s : State} {off : Nat} {c : ProcCycle} (hidle : s.clock.state ≠ .idle)
    (hval : s.validating = false) (hok : s.liveOk off (s.mergedField off c) = true) :
    liveWrite off c s = liveEffect off (s.mergedField off c) (takeField off (s.mergedField off c) c s) := by
  simp [liveWrite, hidle, hval, hok]

/-- In LOADING before validation the part is not IDLE. -/
theorem validating_loading {s : State} (h : s.validating = true) : s.clock.state = .loading ∧ s.shadow.loaded = false := by
  simpa [State.validating] using h

/-- A LIVE write during a load: unchecked before the word is read, by its own field after (R175). -/
theorem liveWrite_validating {s : State} (h : s.validating = true) (off : Nat) (c : ProcCycle) :
    liveWrite off c s =
      if s.alreadyRead off then
        if liveWordOk off (s.mergedField off c) then takeField off (s.mergedField off c) c s else refuseRange off s
      else passWrite c s := by
  simp [liveWrite, h, (validating_loading h).1]

/-- Only a COMMAND write can match a COMMAND word's class. -/
theorem setupWrite_live {off : Nat} (h : pageWord off = .live) (c : ProcCycle) (s : State) :
    setupWrite off c s = liveWrite off c s := by simp [setupWrite, h]

/-! ## KIND words -/

/-- A word of the page other than the two KIND words leaves the KINDs as they were. -/
theorem noBusCue_put {s x : State} {off : Nat} {w : Word} (hx : x.shadow.words = (s.shadow.put off w).words)
    (hoff : off / 2 < 704) (ha : off / 2 ≠ offCueA / 2) (hb : off / 2 ≠ offCueB / 2) (h : s.noBusCue) : x.noBusCue := by
  rw [noBusCue_congr (s := { s with shadow := s.shadow.put off w }) hx]
  have hword (off' : Nat) (h' : off' / 2 < 704) (hne : off / 2 ≠ off' / 2) :
      (s.shadow.put off w).word off' = s.shadow.word off' := by
    rw [Shadow.word_put _ _ _ _ hoff h', if_neg (Ne.symm hne)]
  have hkindA : (s.shadow.put off w).cueWord .a 0 = s.shadow.cueWord .a 0 := hword offCueA (by decide) ha
  have hkindB : (s.shadow.put off w).cueWord .b 0 = s.shadow.cueWord .b 0 := hword offCueB (by decide) hb
  unfold State.noBusCue State.cueNat at h ⊢
  rwa [hkindA, hkindB]

/-! ## The row -/

/-- The row of a LIVE write that is taken: the BUS test of its own cycle finds no KIND BUS. -/
theorem cycleRow_taken {s : State} {t : Instant} {p : ProcCycle} {off : Nat} (hp : s.portOpen p.order) (hb : s.noBusCue)
    (hidle : s.clock.state ≠ .idle) (hval : s.validating = false) (hw : p.isWrite = true)
    (hclass : s.classify p.addr = .setup off) (hlive : pageWord off = .live) (hoff : off / 2 < 704)
    (hkind : p.order.cueFirst = true ∨ off / 2 ≠ offCueA / 2 ∧ off / 2 ≠ offCueB / 2)
    {w : Word} (hword : s.mergedField off p = w) (hok : s.liveOk off w = true) :
    ∃ y, Seen s t y ∧ cycleRow t p s = .next (drivePins (liveEffect off w (takeField off w p y))) := by
  obtain ⟨y, hy, -, hrow⟩ := cycleRow_seen (t := t) hp
  obtain ⟨hmerged, hlok, hyval, -⟩ := seen_live hy
  have hyidle : y.clock.state ≠ .idle := by rw [(seen_clock hy).1]; exact hidle
  have hby := seen_noBusCue hy hb
  have heffect : writeEffect p y = liveEffect off w (takeField off w p y) := by
    rw [writeEffect_setup ((seen_classify hy _).trans hclass), setupWrite_live hlive,
      liveWrite_taken hyidle (hyval.trans hval) (by rw [hlok, hmerged, hword]; exact hok), hmerged, hword]
  refine ⟨y, hy, ?_⟩
  rw [hrow, completeCycle_write p hw (holdsCommand_outside_idle p hyidle), ← heffect]
  rcases hkind with hfirst | ⟨ha, hb'⟩
  · rw [showAround, if_pos hfirst, showCycle_noBusCue hby]
  · rw [showAround_noBusCue p _ hby]
    rw [heffect]
    exact noBusCue_put (w := w) (by simp [takeField]) hoff ha hb' hby

/-- A word of the page that is written at an even offset. -/
theorem pageWrite_classify (s : State) {off : Nat} (lanes : Lanes) (data : Word) (o : BusOrder)
    (hoff : off < Config.pageSize) (heven : off % 2 = 0) :
    s.classify (s.pageWrite off lanes data o).addr = .setup off := by
  rw [pageWrite_addr s _ _ _ _ hoff heven, classify_page s _ hoff]

/-- A LIVE word of the page written at the open port and taken: the row, and where the write lands. -/
theorem pageWrite_taken {s : State} {t : Instant} {o : BusOrder} {lanes : Lanes} {data : Word} {off : Nat}
    (hp : s.portOpen o) (hb : s.noBusCue) (hidle : s.clock.state ≠ .idle) (hval : s.validating = false)
    (hlive : pageWord off = .live) (hoff : off / 2 < 704) (heven : off % 2 = 0)
    (hkind : o.cueFirst = true ∨ off / 2 ≠ offCueA / 2 ∧ off / 2 ≠ offCueB / 2)
    (hok : s.liveOk off (laneMerge lanes (s.shadow.word off) data) = true) :
    (s.pageWrite off lanes data o).addr = s.pageBase + off ∧
      ∃ y, Seen s t y ∧ cycleRow t (s.pageWrite off lanes data o) s =
        .next (drivePins (liveEffect off (laneMerge lanes (s.shadow.word off) data)
          (takeField off (laneMerge lanes (s.shadow.word off) data) (s.pageWrite off lanes data o) y))) := by
  have hsize : off < Config.pageSize := by unfold Config.pageSize; omega
  exact ⟨pageWrite_addr s off lanes data o hsize heven,
    cycleRow_taken hp hb hidle hval rfl (pageWrite_classify s lanes data o hsize heven) hlive hoff hkind rfl hok⟩

/-! ## HOLD_DUTY (R102) -/

/-- A HOLD_DUTY taken is applied to the HOLDING keys alone. -/
theorem refreshHolds_key (s : State) (k : Key) :
    (refreshHolds s).key k =
      if (s.key k).state = .holding then { s.key k with duty := s.holdDutyOf (s.key k).reduced } else s.key k := by
  unfold refreshHolds
  rw [foldl_key _ (fun _ r => if r.state = .holding then { r with duty := s.holdDutyOf r.reduced } else r)
    (fun x => x.shadow = s.shadow)]
  · simp
  · intro x k hx
    split <;> simpa using hx
  · intro x k k' hx
    have hduty (b : Bool) : x.holdDutyOf b = s.holdDutyOf b := by rw [State.holdDutyOf, State.holdDutyOf, hx]
    split
    case isTrue hk => simp [updKey_key, hduty]
    case isFalse hk =>
      split
      case isTrue e => rw [e]
      case isFalse => rfl
  · exact allKeys_nodup
  · rfl

/-! ## The classes of LIVE words -/

/-- The LIVE words of the scalar fields and the velocity maps lie apart from the words that have effects of their own. -/
theorem otherLive_range {off : Nat} (h : isOtherLive off = true) :
    (0x0E0 ≤ off ∧ off ≤ 0x0EC) ∨ (0x180 ≤ off ∧ off ≤ 0x1FE) := by simpa [isOtherLive, inRange] using h

theorem pageWord_otherLive {off : Nat} (h : isOtherLive off = true) : pageWord off = .live := by
  rcases otherLive_range h with ⟨h1, h2⟩ | ⟨h1, h2⟩ <;> unfold pageWord inRange offCommand offArg offResult offRptRead <;> grind

theorem liveOk_otherLive {off : Nat} (h : isOtherLive off = true) (s : State) (w : Word) :
    s.liveOk off w = liveWordOk off w := by
  have hblock : inRange 0x100 off 0x13E = false := by
    rcases otherLive_range h with h | h <;> simp [inRange] <;> omega
  have hread : off ≠ offRptRead := by
    rcases otherLive_range h with h | h <;> unfold offRptRead <;> omega
  rw [State.liveOk, if_neg hread, hblock, if_neg Bool.false_ne_true]

/-- Of these words HOLD_DUTY alone has an effect of its own (R102). -/
theorem liveEffect_otherLive {off : Nat} (h : isOtherLive off = true) (w : Word) (s : State) :
    liveEffect off w s = if off = offHoldDuty then refreshHolds s else s := by
  have hrange := otherLive_range h
  have ha : inRange 0x100 off 0x11E = false := by simp [inRange]; omega
  have hb : inRange 0x120 off 0x13E = false := by simp [inRange]; omega
  have hk : inRange 0x200 off 0x2AE = false := by simp [inRange]; omega
  have hsequential : off ≠ offSequential := by unfold offSequential; omega
  simp [liveEffect, ha, hb, hk, hsequential]

/-! ## A field taken -/

theorem takeField_other {off : Nat} (hread : off ≠ offRptRead) (hnotice : off ≠ offNotice) (w : Word) (c : ProcCycle)
    (s : State) : takeField off w c s = putField off w (passWrite c s) := by
  rw [takeField, takeNotice, if_neg hread, if_neg hnotice]

/-- NOTICE_ENABLE and RPT_READ follow in the Report Writer and have no other effect (R181, R182). -/
theorem takeField_notice (w : Word) (c : ProcCycle) (s : State) :
    liveEffect offNotice w (takeField offNotice w c s) =
      setReport { s.report with enables := w.toNat } (putField offNotice w (passWrite c s)) := rfl

theorem takeField_rptRead (w : Word) (c : ProcCycle) (s : State) :
    liveEffect offRptRead w (takeField offRptRead w c s) =
      setReport { s.report with readIndex := w.toNat } (putField offRptRead w (passWrite c s)) := rfl

@[simp] theorem putField_word {off : Nat} (h : off / 2 < 704) (w : Word) (s : State) :
    (putField off w s).shadow.word off = w := by
  rw [putField_shadow, Shadow.word_put _ _ _ _ h h, if_pos rfl]

/-- The keys after a taken scalar field or velocity map word: those that HOLD at the duty of HOLD_DUTY follow it (R102). -/
theorem liveEffect_otherLive_key {off : Nat} (h : isOtherLive off = true) {w : Word} {s : State}
    (hw : s.shadow.word off = w) (k : Key) :
    (liveEffect off w s).key k =
      if off = offHoldDuty ∧ (s.key k).state = .holding then
        { s.key k with duty := if (s.key k).reduced then w.toNat / 2 else w.toNat }
      else s.key k := by
  rw [liveEffect_otherLive h]
  by_cases hoff : off = offHoldDuty
  · have hduty : s.shadow.holdDuty = w.toNat := by rw [← hw, hoff]; rfl
    simp [hoff, refreshHolds_key, State.holdDutyOf, hduty]
  · simp [hoff]

/-- The frame of a taken write: memory, the field in the shadow, and what its effect on the blocks changes. -/
theorem frame_of_taken {s y x : State} {t : Instant} {off : Nat} {w : Word} {p : ProcCycle} {sched : List Entry}
    {fire : Fire} {keys : Bank KeyRec 88} {cue : Cue} {report : Report} (hy : Seen s t y)
    (hx : x = { putField off w (passWrite p y) with
      sched := sched, fire := fire, keys := keys, cue := cue, report := report, updates := x.updates }) :
    drivePins x = { s.withBook (drivePins x) with
      mem := writeLanes s.mem p.addr p.lanes p.data, sched := sched, fire := fire, keys := keys, cue := cue
      shadow := { s.shadow.put off w with result := x.shadow.result }, report := report } := by
  generalize x.updates = updates at hx
  subst hx
  rw [hy]
  rfl

end Sys2Proof.Machine

open Sys2Proof Sys2Proof.Machine

/-- Settles O8: each write is taken at the open port (`cycleRow_taken`); HOLD_DUTY is applied by `liveEffect_otherLive_key`,
the read index and the enables by `takeNotice`. -/
theorem liveWriteInRangeIsTaken : Obligations.live_write_in_range_is_taken := by
  intro t o lanes data s hp hb hidle hval
  refine ⟨?field, ?notice, ?rptRead⟩
  case field =>
    intro off hwf w hok
    obtain ⟨heven, hother⟩ : off.toNat % 2 = 0 ∧ isOtherLive off.toNat = true := by simpa [Instr.wellFormed] using hwf
    have hrange := otherLive_range hother
    obtain ⟨haddr, y, hy, hrow⟩ := pageWrite_taken (t := t) (o := o) hp hb hidle hval (pageWord_otherLive hother)
      (by omega) heven (.inr (by unfold offCueA offCueB; omega)) ((liveOk_otherLive hother s w).trans hok)
    rw [takeField_other (by unfold offRptRead; omega) (by unfold offNotice; omega)] at hrow
    refine ⟨_, hrow, fun k => ?key, ?frame⟩
    case key =>
      have hput (p : ProcCycle) : (putField off.toNat w (passWrite p y)).key k = s.key k := by
        simp [State.key, seen_parts hy]
      refine (liveEffect_otherLive_key hother (putField_word (by omega) _ _) k).trans ?_
      rw [hput]
      rfl
    case frame =>
      rw [← haddr]
      refine frame_of_taken (p := s.pageWrite off.toNat lanes data o) hy ?_
      rw [liveEffect_otherLive hother]
      split <;> apply state_ext <;> simp [seen_parts hy, w]
  case notice =>
    intro hok
    obtain ⟨haddr, y, hy, hrow⟩ := pageWrite_taken (t := t) (off := offNotice) hp hb hidle hval rfl (by decide) rfl
      (.inr (by decide)) (decide_eq_true hok)
    refine ⟨_, hrow, rfl, ?_⟩
    rw [← haddr]
    refine frame_of_taken (p := s.pageWrite offNotice lanes data o) hy ?_
    rw [takeField_notice]
    apply state_ext <;> simp [seen_parts hy]
  case rptRead =>
    intro hok
    obtain ⟨haddr, y, hy, hrow⟩ := pageWrite_taken (t := t) (off := offRptRead) hp hb hidle hval rfl (by decide) rfl
      (.inr (by decide)) (decide_eq_true hok)
    refine ⟨_, hrow, rfl, ?_⟩
    rw [← haddr]
    refine frame_of_taken (p := s.pageWrite offRptRead lanes data o) hy ?_
    rw [takeField_rptRead]
    apply state_ext <;> simp [seen_parts hy]
end

section
/-! PROOF. LIVE writes that a load in progress meets before its validation (R175). -/

namespace Sys2Proof.Machine

/-- While a load has not validated the Cue Unit does not watch (R150). -/
theorem watching_validating {s : State} (h : s.validating = true) : s.watching = false := by
  obtain ⟨hstate, hloaded⟩ := validating_loading h
  simp [State.watching, hstate, hloaded]

/-- No LIVE write loads or unloads the shadow. -/
theorem liveWrite_loaded (off : Nat) (c : ProcCycle) (s : State) :
    (liveWrite off c s).shadow.loaded = s.shadow.loaded := by
  unfold liveWrite
  dsimp only
  (repeat' split) <;> simp [takeField, Shadow.put]

/-- The row of a LIVE write during a load. -/
theorem cycleRow_validating {s : State} {t : Instant} {p : ProcCycle} {off : Nat} (hp : s.portOpen p.order)
    (hw : p.isWrite = true) (hclass : s.classify p.addr = .setup off) (hlive : pageWord off = .live)
    (hval : s.validating = true) :
    ∃ y, Seen s t y ∧ y.alreadyRead off = s.alreadyRead off ∧ y.mergedField off p = s.mergedField off p ∧
      cycleRow t p s = .next (drivePins (liveWrite off p y)) := by
  obtain ⟨y, hy, -, hrow⟩ := cycleRow_seen (t := t) hp
  obtain ⟨hmerged, -, hyval, hread⟩ := seen_live hy
  have hyval : y.validating = true := hyval.trans hval
  have heffect : writeEffect p y = liveWrite off p y := by
    rw [writeEffect_setup ((seen_classify hy _).trans hclass), setupWrite_live hlive]
  refine ⟨y, hy, hread off, hmerged off p, ?_⟩
  rw [hrow, completeCycle_write p hw (holdsCommand_outside_idle p (by simp [(validating_loading hyval).1])),
    showAround_unwatched p _ (watching_validating hyval), heffect]
  rw [heffect]
  exact watching_validating (by simpa [State.validating, liveWrite_loaded] using hyval)

/-- While the Report Writer is dormant a record raised is nothing (R178). -/
theorem raise_dormant {s : State} (h : s.report.active = false) (k : ReportKind) (a d : Word) : raise k a d s = s := by
  have haccept (x : Record) : s.report.accept x = s.report := by simp [Report.accept, h]
  unfold raise
  rw [haccept]
  simp [setReport, tellIf]

theorem frame_of_seen {s y : State} {t : Instant} (hy : Seen s t y) : drivePins y = s.withBook (drivePins y) := by
  rw [hy]
  rfl

end Sys2Proof.Machine

open Sys2Proof Sys2Proof.Machine

/-- Settles O9: by the three cases of `liveWrite_validating`. -/
theorem liveWriteDuringALoad : Obligations.live_write_during_a_load := by
  intro c s t p off hc hw hclass hlive hp hval
  obtain ⟨y, hy, hread, hmerged, hrow⟩ := cycleRow_validating (t := t) hp hw hclass hlive hval
  have hyval : y.validating = true := (seen_live hy).2.2.1.trans hval
  rw [exec_cycleOf hc, hrow, liveWrite_validating hyval, hread, hmerged]
  refine ⟨fun hunread => ?unread, fun hr hok => ?taken, fun hr hok hdormant => ?refused⟩
  case unread =>
    rw [hunread]
    exact ⟨_, rfl, frame_of_pass p hy⟩
  case taken =>
    rw [hr, hok]
    refine ⟨_, rfl, frame_of_taken hy ?_⟩
    unfold takeField takeNotice
    have hwords : offNotice ≠ offRptRead := by decide
    (repeat' split) <;> apply state_ext <;> simp_all [seen_parts hy]
  case refused =>
    rw [hr, hok]
    refine ⟨_, rfl, ?_⟩
    have hydormant : y.report.active = false := by simpa [seen_parts hy] using hdormant
    simpa [refuseRange, raise_dormant hydormant] using frame_of_seen hy
end

section
/-! PROOF. What a key table word makes of its key (R114 to R116), what the grants that follow leave alone (R96), and the cue
flags that a taken write clears (R158). -/

namespace Sys2Proof.Machine

/-! ## What records raised move on of the Report Writer (R179) -/

/-- Of the Report Writer only the queue, the record in progress and reports-lost have moved on. -/
def OnlyRaised (r r' : Report) : Prop := r' = { r with queue := r'.queue, current := r'.current, lost := r'.lost }

theorem OnlyRaised.refl (r : Report) : OnlyRaised r r := rfl

theorem OnlyRaised.of_eq {r r' : Report} (h : r' = r) : OnlyRaised r r' := h ▸ rfl

theorem OnlyRaised.trans {a b c : Report} (h : OnlyRaised a b) (h' : OnlyRaised b c) : OnlyRaised a c := by
  unfold OnlyRaised at h h' ⊢
  rw [h'] at ⊢
  rw [h]

theorem raise_onlyRaised (k : ReportKind) (a d : Word) (s : State) : OnlyRaised s.report (raise k a d s).report := by
  apply report_ext <;> simp

/-! ## Grants (R96) -/

@[simp] theorem setQueue_key (q : List Waiting) (s : State) (k : Key) : (setQueue q s).key k = s.key k := rfl

@[simp] theorem setCount_key (n : Nat) (s : State) (k : Key) : (setCount n s).key k = s.key k := rfl

/-- A grant of a free key's strike leaves every key that is not free as it was. -/
theorem grantOne_key_of_not_free {w : Waiting} {s : State} {k : Key} (hw : (s.key w.key).free = true)
    (hk : (s.key k).free = false) : (grantOne w s).key k = s.key k := by
  have hne : k ≠ w.key := by
    rintro rfl
    exact absurd hw (by simp [hk])
  unfold grantOne
  split
  · simp [strikeGone_key, hne]
  · simp [updKey_key, hne]

theorem eligible_free {s : State} {w : Waiting} (h : s.eligible = some w) : (s.key w.key).free = true := by
  simpa using List.find?_some h

theorem grantLoop_key_of_not_free (n : Nat) {s : State} {k : Key} (hk : (s.key k).free = false) :
    (grantLoop n s).key k = s.key k := by
  induction n generalizing s with
  | zero => rfl
  | succ n ih =>
    unfold grantLoop
    split
    · split
      · rfl
      · rename_i w hw
        have hsame := grantOne_key_of_not_free (eligible_free hw) hk
        rw [ih (by rw [hsame]; exact hk), hsame]
    · rfl

/-- Grants leave every key that is not free as it was (R96). -/
theorem grantStrikes_key_of_not_free {s : State} {k : Key} (hk : (s.key k).free = false) :
    (grantStrikes s).key k = s.key k := grantLoop_key_of_not_free _ hk

theorem grantOne_queue (w : Waiting) (s : State) : (grantOne w s).fire.queue = withoutKey w.key s.fire.queue := by
  unfold grantOne
  split <;> simp

/-- Grants take strikes out of the queue and put none in (R96). -/
theorem grantLoop_queue (n : Nat) (s : State) : ∀ x ∈ (grantLoop n s).fire.queue, x ∈ s.fire.queue := by
  induction n generalizing s with
  | zero => exact fun x hx => hx
  | succ n ih =>
    unfold grantLoop
    split
    · split
      · exact fun x hx => hx
      · rename_i w _
        intro x hx
        have hmem := ih _ x hx
        rw [grantOne_queue] at hmem
        exact (List.mem_filter.mp hmem).1
    · exact fun x hx => hx

theorem grantStrikes_queue (s : State) : ∀ x ∈ (grantStrikes s).fire.queue, x ∈ s.fire.queue := grantLoop_queue _ s

theorem grantOne_onlyRaised (w : Waiting) (s : State) : OnlyRaised s.report (grantOne w s).report := by
  unfold grantOne
  split
  · simpa using raise_onlyRaised .dropHot (keyWord w.key) w.tag (setQueue (withoutKey w.key s.fire.queue) s)
  · exact .of_eq (by simp)

theorem grantLoop_onlyRaised (n : Nat) (s : State) : OnlyRaised s.report (grantLoop n s).report := by
  induction n generalizing s with
  | zero => exact .refl _
  | succ n ih =>
    unfold grantLoop
    split
    · split
      · exact .refl _
      · exact (grantOne_onlyRaised _ s).trans (ih _)
    · exact .refl _

theorem grantStrikes_onlyRaised (s : State) : OnlyRaised s.report (grantStrikes s).report := grantLoop_onlyRaised _ s

/-! ## A key table word (R114, R115, R116) -/

theorem lockKey_key (k : Key) (src : Source) (direct : Nat) (s : State) (k' : Key) :
    (lockKey k src direct s).key k' = if k' = k then (s.key k).lockedBy src direct else s.key k' := by
  have hsame : (lockKey k src direct s).key k' = (updKey k (fun r => r.lockedBy src direct) s).key k' := by
    simp [lockKey, State.key]
  rw [hsame, updKey_key]

theorem lockKey_queue (k : Key) (src : Source) (direct : Nat) (s : State) :
    (lockKey k src direct s).fire.queue = withoutKey k s.fire.queue := rfl

theorem lockKey_sched (k : Key) (src : Source) (direct : Nat) (s : State) :
    (lockKey k src direct s).sched = s.sched.filter (fun e => !isEntryOf k e) := by
  simp [lockKey]

/-- A key table word touches its own key alone, and brings it into line with its SOURCE. -/
theorem applyKeyWord_key (k : Key) (w : Word) (s : State) (k' : Key) :
    (applyKeyWord k w s).key k' = if k' = k then s.keyAligned s.shadow.recovery s.now k w else s.key k' := by
  by_cases hk : k' = k
  case neg =>
    unfold applyKeyWord
    (repeat' split) <;> simp [unlockKey_key, lockKey_key, updKey_key, hk]
  case pos =>
    subst hk
    unfold applyKeyWord State.keyAligned
    (repeat' split) <;>
      simp_all [unlockKey_key, lockKey_key, updKey_key, KeyRec.releasing, KeyRec.lockedBy, Config.unit]

/-- Of the schedule only the entries of a key that is locked now are taken out (R114). -/
theorem applyKeyWord_sched (k : Key) (w : Word) (s : State) :
    (applyKeyWord k w s).sched =
      if keyWordSource w ≠ .timer ∧ (s.key k).state ≠ .locked then s.sched.filter (fun e => !isEntryOf k e)
      else s.sched := by
  unfold applyKeyWord
  (repeat' split) <;> simp_all [lockKey_sched]

/-- Of the firing queue only the strike of a key that is locked now is taken out (R114). -/
theorem applyKeyWord_queue (k : Key) (w : Word) (s : State) :
    (applyKeyWord k w s).fire.queue =
      if keyWordSource w ≠ .timer ∧ (s.key k).state ≠ .locked then withoutKey k s.fire.queue else s.fire.queue := by
  unfold applyKeyWord
  (repeat' split) <;> simp_all [lockKey_queue, unlockKey]

/-- With an empty queue a key table word leaves it empty. -/
theorem applyKeyWord_queue_nil {k : Key} {w : Word} {s : State} (h : s.fire.queue = []) :
    (applyKeyWord k w s).fire.queue = [] := by
  rw [applyKeyWord_queue, h]
  split <;> rfl

/-- A key that is LOCKED, or unlocked by the word, is not free (R101). -/
theorem keyAligned_not_free {s : State} {recovery : Nat} {now : Instant} {k : Key} {w : Word}
    (h : keyWordSource w ≠ .timer ∨ (s.key k).state = .locked) : (s.keyAligned recovery now k w).free = false := by
  unfold State.keyAligned KeyRec.free
  (repeat' split) <;> simp_all

/-! ## The row -/

theorem offKeyTable_range (k : Key) : 0x200 ≤ offKeyTable k ∧ offKeyTable k ≤ 0x2AE ∧ offKeyTable k % 2 = 0 := by
  have := k.isLt
  unfold offKeyTable
  omega

theorem offKeyTable_live (k : Key) : pageWord (offKeyTable k) = .live := by
  have := offKeyTable_range k
  unfold pageWord inRange offCommand offArg offResult offRptRead
  grind

theorem liveOk_keyTable (k : Key) (s : State) (w : Word) : s.liveOk (offKeyTable k) w = keyWordOk w.toNat := by
  have := offKeyTable_range k
  unfold State.liveOk liveWordOk inRange offRptRead offSequential
  grind

theorem keyAt_offKeyTable (k : Key) : keyAt (offKeyTable k) = k := by
  unfold keyAt offKeyTable
  ext
  simp

/-- A key table word taken: the field, the key, then the grants (R96). -/
theorem liveEffect_keyTable (k : Key) (w : Word) (c : ProcCycle) (s : State) :
    liveEffect (offKeyTable k) w (takeField (offKeyTable k) w c s) =
      grantStrikes (applyKeyWord k w (putField (offKeyTable k) w (passWrite c s))) := by
  have hrange := offKeyTable_range k
  rw [takeField_other (by unfold offRptRead; omega) (by unfold offNotice; omega)]
  have hhold : offKeyTable k ≠ offHoldDuty := by unfold offHoldDuty; omega
  have hsequential : offKeyTable k ≠ offSequential := by unfold offSequential; omega
  have ha : inRange 0x100 (offKeyTable k) 0x11E = false := by simp [inRange]; omega
  have hb : inRange 0x120 (offKeyTable k) 0x13E = false := by simp [inRange]; omega
  have htable : inRange 0x200 (offKeyTable k) 0x2AE = true := by simp [inRange]; omega
  simp [liveEffect, hhold, hsequential, ha, hb, htable, keyAt_offKeyTable]

end Sys2Proof.Machine

open Sys2Proof Sys2Proof.Machine

/-- Settles O10: the word is applied to its key (`applyKeyWord_key`), which is not free then, so that the grants that follow
leave it; with an empty firing queue there is no grant. -/
theorem keyTableWriteLocksUnlocksAndDrives : Obligations.key_table_write_locks_unlocks_and_drives := by
  intro t o k lanes data s hp hb hidle hval w hok
  have hrange := offKeyTable_range k
  obtain ⟨haddr, y, hy, hrow⟩ := pageWrite_taken (t := t) (o := o) hp hb hidle hval (offKeyTable_live k)
    (by omega) hrange.2.2 (.inr (by unfold offCueA offCueB; omega)) ((liveOk_keyTable k s w).trans hok)
  rw [liveEffect_keyTable] at hrow
  change _ = Host.Outcome.next (drivePins (grantStrikes (applyKeyWord k w _))) at hrow
  generalize hz : putField (offKeyTable k) w (passWrite (s.pageWrite (offKeyTable k) lanes data o) y) = z at hrow
  have hkey (k' : Key) : z.key k' = s.key k' := by simp [← hz, State.key, seen_parts hy]
  have hqueue : z.fire.queue = s.fire.queue := by simp [← hz, seen_parts hy]
  have hzsched : z.sched = s.sched := by simp [← hz, seen_parts hy]
  have haligned : z.keyAligned z.shadow.recovery z.now k w = s.keyAligned s.shadow.recovery (s.at t) k w := by
    have hrecovery : z.shadow.recovery = s.shadow.recovery := by
      rw [← hz]
      exact congrArg BitVec.toNat
        ((Shadow.word_put _ _ 0x0A0 _ (by omega) (by decide)).trans ((if_neg (by omega)).trans (by simp [seen_shadow hy])))
    have hnow : z.now = s.at t := by simp [← hz, seen_parts hy]
    rw [State.keyAligned, State.keyAligned, hkey, hrecovery, hnow]
  have hown (h : keyWordSource w ≠ .timer ∨ (s.key k).state = .locked) :
      (grantStrikes (applyKeyWord k w z)).key k = s.keyAligned s.shadow.recovery (s.at t) k w := by
    have happlied : (applyKeyWord k w z).key k = s.keyAligned s.shadow.recovery (s.at t) k w := by
      rw [applyKeyWord_key, if_pos rfl, haligned]
    rw [grantStrikes_key_of_not_free (by rw [happlied]; exact keyAligned_not_free h), happlied]
  have hsched (h : ¬ (keyWordSource w ≠ .timer ∧ (s.key k).state ≠ .locked)) :
      (grantStrikes (applyKeyWord k w z)).sched = s.sched := by
    have hkept : (grantStrikes (applyKeyWord k w z)).sched = (applyKeyWord k w z).sched := by simp
    rw [hkept, applyKeyWord_sched, hkey, if_neg h, hzsched]
  refine ⟨_, hrow, ?frame, fun hsrc hst => ?lock, fun hsrc hst => ?unlock, fun hsrc hst => ?drive,
    fun hsrc hst hempty => ?stays, fun hempty k' hk' => ?others⟩
  case frame =>
    rw [← haddr]
    refine frame_of_taken (p := s.pageWrite (offKeyTable k) lanes data o) hy ?_
    have hreport := grantStrikes_onlyRaised (applyKeyWord k w z)
    subst hz
    apply state_ext
    case report => simpa [OnlyRaised, seen_parts hy] using hreport
    all_goals simp [seen_parts hy]
  case lock =>
    have hlocked : keyWordSource w ≠ .timer ∧ (z.key k).state ≠ .locked := ⟨hsrc, by rwa [hkey]⟩
    refine ⟨(hown (.inl hsrc)).trans (by simp [State.keyAligned, hsrc, hst]), ?_, fun x hx => ?_⟩
    · simp [applyKeyWord_sched, hlocked, hzsched]
    · have hmem := grantStrikes_queue _ x hx
      rw [applyKeyWord_queue, if_pos hlocked] at hmem
      simpa using (List.mem_filter.mp hmem).2
  case unlock => exact ⟨(hown (.inr hst)).trans (by simp [State.keyAligned, hsrc, hst]), hsched (by simp [hsrc])⟩
  case drive => exact ⟨(hown (.inr hst)).trans (by simp [State.keyAligned, hsrc, hst]), hsched (by simp [hst])⟩
  case stays =>
    refine ⟨?_, hsched (by simp [hsrc])⟩
    refine (congrArg (State.key · k) (grantStrikes_empty (applyKeyWord_queue_nil (hqueue.trans hempty)))).trans ?_
    rw [applyKeyWord_key, if_pos rfl, haligned]
    simp [State.keyAligned, hsrc, hst]
  case others =>
    refine (congrArg (State.key · k') (grantStrikes_empty (applyKeyWord_queue_nil (hqueue.trans hempty)))).trans ?_
    rw [applyKeyWord_key, if_neg hk', hkey]
end

section
/-! PROOF. The command row (R64, R168): the state a command acts on, its reply, and its frame; and what clears the cue flags
(R158). -/

namespace Sys2Proof.Machine

/-! ## A command taken at the open port -/

/-- The state that an accepted command acts on: the COMMAND write has passed and is counted (R168). -/
def commandSeen (t : Instant) (c : ProcCycle) (s : State) : State := bumpCount (passWrite c (advance t s))

@[simp] theorem commandSeen_parts (t : Instant) (c : ProcCycle) (s : State) :
    (commandSeen t c s).now = s.at t ∧ (commandSeen t c s).pending = s.pending ∧ (commandSeen t c s).rst = s.rst ∧
      (commandSeen t c s).inh = s.inh ∧ (commandSeen t c s).ntc = s.ntc ∧ (commandSeen t c s).pwait = s.pwait ∧
      (commandSeen t c s).spb = s.spb ∧ (commandSeen t c s).pd = s.pd ∧ (commandSeen t c s).kdNext = s.kdNext ∧
      (commandSeen t c s).mem = c.written s.mem ∧ (commandSeen t c s).arb = s.arb ∧
      (commandSeen t c s).ring = s.ring ∧ (commandSeen t c s).track = s.track ∧ (commandSeen t c s).expr = s.expr ∧
      (commandSeen t c s).sched = s.sched ∧ (commandSeen t c s).fire = s.fire ∧ (commandSeen t c s).keys = s.keys ∧
      (commandSeen t c s).heat = s.heat ∧ (commandSeen t c s).pedals = s.pedals ∧ (commandSeen t c s).cue = s.cue ∧
      (commandSeen t c s).report = s.report ∧
      (commandSeen t c s).shadow = { s.shadow with count := s.shadow.count + 1 } ∧
      (commandSeen t c s).clock = { s.clock with exprCount := (advance t s).clock.exprCount } :=
  ⟨rfl, rfl, rfl, rfl, rfl, rfl, rfl, rfl, rfl, rfl, rfl, rfl, rfl, rfl, rfl, rfl, rfl, rfl, rfl, rfl, rfl, rfl, rfl⟩

/-- The reply to a command is decided by what the row does not move on. -/
theorem replyOf_commandSeen (cmd : Command) (t : Instant) (c : ProcCycle) (s : State) :
    replyOf cmd (commandSeen t c s) = replyOf cmd s := by
  cases cmd <;> rfl

/-- The code of a command. -/
def Command.number : Command → Nat
  | .load => 1
  | .unload => 2
  | .start => 3
  | .hold => 4
  | .resume => 5
  | .step => 6
  | .stop => 7
  | .silence => 8
  | .cueClear => 9

theorem commandOf_number (cmd : Command) : commandOf cmd.number = some cmd := by cases cmd <;> rfl

theorem number_inRange (cmd : Command) : inRange 1 cmd.number 9 = true := by cases cmd <;> rfl

/-- The row of a COMMAND write that carries a command's code. -/
theorem cycleRow_command {s : State} {t : Instant} {o : BusOrder} (cmd : Command) (hi : Option Byte)
    (h : s.commandOpen o) :
    cycleRow t (s.commandWrite cmd.number hi o) s =
      .next (drivePins (takeCommand cmd.number (passWrite (s.commandWrite cmd.number hi o) (advance t s)))) := by
  obtain ⟨hwrite, horder⟩ := commandWrite_parts s cmd.number hi o
  have hcode := commandWrite_code s cmd.number hi o (by cases cmd <;> decide)
  rw [command_row (by rwa [horder]) hwrite (commandWrite_addr s _ hi o), hcode]

theorem cycleRow_accepted {s : State} {t : Instant} {o : BusOrder} {cmd : Command} (hi : Option Byte)
    (h : s.commandOpen o) (hreply : replyOf cmd s = .accepted) :
    cycleRow t (s.commandWrite cmd.number hi o) s =
      .next (drivePins (placeResult cmd.number .accepted
        (actOn cmd (commandSeen t (s.commandWrite cmd.number hi o) s)))) := by
  rw [cycleRow_command cmd hi h, takeCommand_accepted (commandOf_number cmd)]
  · rfl
  · exact (replyOf_commandSeen cmd t _ s).trans hreply

theorem cycleRow_notAccepted {s : State} {t : Instant} {o : BusOrder} {cmd : Command} (hi : Option Byte)
    (h : s.commandOpen o) (hreply : replyOf cmd s ≠ .accepted) :
    cycleRow t (s.commandWrite cmd.number hi o) s =
      .next (drivePins (placeResult cmd.number (replyOf cmd s)
        (commandSeen t (s.commandWrite cmd.number hi o) s))) := by
  have hsame := replyOf_commandSeen cmd t (s.commandWrite cmd.number hi o) s
  rw [cycleRow_command cmd hi h, takeCommand_refused (commandOf_number cmd) (by exact hsame ▸ hreply)]
  exact congrArg (fun r => Host.Outcome.next (drivePins (placeResult cmd.number r _))) hsame

/-- A command that has acted is counted and answered (R168, R170). -/
theorem answered_command {s x : State} {cmd : Command} {r : Reply} (h : x.shadow.count = s.shadow.count + 1) :
    s.answered (drivePins (placeResult cmd.number r x)) cmd.number r :=
  answered_drivePins (number_inRange cmd) h

theorem actOn_commandSeen_count (cmd : Command) (t : Instant) (c : ProcCycle) (s : State) :
    (actOn cmd (commandSeen t c s)).shadow.count = s.shadow.count + 1 := by simp

/-- The frame of a command that has acted: memory, the shadow, and the parts its action changes. -/
theorem frame_of_command {s x : State} {t : Instant} {c : ProcCycle} {n : Nat} {r : Reply} {ring : Ring} {track : Track}
    {clock : Clock} {expr : Expression} {sched : List Entry} {fire : Fire} {keys : Bank KeyRec 88} {pedals : PedalUnit}
    {cue : Cue} {shadow : Shadow} {report : Report}
    (hx : x = { commandSeen t c s with
      arb := { s.arb with owner := x.arb.owner }, ring := ring, track := track, clock := clock, expr := expr
      sched := sched, fire := fire, keys := keys, pedals := pedals, cue := cue, shadow := x.shadow, report := report
      updates := x.updates })
    (hs : (placeResult n r x).shadow = shadow) :
    drivePins (placeResult n r x) = { s.withBook (drivePins (placeResult n r x)) with
      mem := c.written s.mem, ring := ring, track := track, clock := clock, expr := expr, sched := sched, fire := fire
      keys := keys, pedals := pedals, cue := cue, shadow := shadow, report := report } := by
  subst hs
  generalize x.updates = updates, x.arb.owner = owner, x.shadow = sh at hx
  subst hx
  rfl

/-- The shadow after a command: the count and the result have moved on. -/
theorem shadow_of_command {s x : State} {n : Nat} {r : Reply}
    (h : x.shadow = { s.shadow with count := s.shadow.count + 1 }) :
    (placeResult n r x).shadow =
      { s.shadow with count := s.shadow.count + 1, result := (placeResult n r x).shadow.result } := by
  rw [placeResult_shadow, h]

/-! ## Clearing the cue flags (R158) -/

theorem clearByMask_cue {mask : Nat} (h1 : 1 ≤ mask) (h3 : mask ≤ 3) (s : State) :
    (clearByMask mask s).cue = { s.cue with
      flagA := if mask = 2 then s.cue.flagA else false
      flagB := if mask = 1 then s.cue.flagB else false
      bArmed := if mask = 2 then s.cue.bArmed else false } := by
  obtain rfl | rfl | rfl : mask = 1 ∨ mask = 2 ∨ mask = 3 := by omega
  all_goals rfl

theorem clearByBlock_cue (ch : Channel) (s : State) :
    (clearByBlock ch s).cue = { s.cue with
      flagA := if ch = .a then false else s.cue.flagA
      flagB := if ch = .b then false else s.cue.flagB
      bArmed := false } := by
  cases ch <;> rfl

/-- Where the words of a channel's block lie. -/
theorem offBlock_range (ch : Channel) (w : Fin 16) :
    offBlock ch = (if ch = .a then 0x100 else 0x120) ∧
      offBlock ch ≤ offBlock ch + 2 * w.val ∧ offBlock ch + 2 * w.val ≤ offBlock ch + 0x1E := by
  refine ⟨by cases ch <;> rfl, ?_⟩
  omega

theorem offBlock_bounds (ch : Channel) (w : Fin 16) :
    0x100 ≤ offBlock ch + 2 * w.val ∧ offBlock ch + 2 * w.val ≤ 0x13E ∧ (offBlock ch + 2 * w.val) % 2 = 0 := by
  cases ch <;> simp only [offBlock, offCueA, offCueB] <;> omega

theorem offBlock_live (ch : Channel) (w : Fin 16) : pageWord (offBlock ch + 2 * w.val) = .live := by
  have := offBlock_bounds ch w
  generalize offBlock ch + 2 * w.val = off at this
  unfold pageWord inRange offCommand offArg offResult offRptRead
  grind

theorem liveOk_block (ch : Channel) (w : Fin 16) (s : State) (word : Word) :
    s.liveOk (offBlock ch + 2 * w.val) word = s.blockOk (offBlock ch + 2 * w.val) word := by
  have := offBlock_bounds ch w
  generalize offBlock ch + 2 * w.val = off at this
  unfold State.liveOk inRange offRptRead
  grind

/-- A taken word of a channel's block: the field, then the flags. -/
theorem liveEffect_block (ch : Channel) (w : Fin 16) (word : Word) (c : ProcCycle) (s : State) :
    liveEffect (offBlock ch + 2 * w.val) word (takeField (offBlock ch + 2 * w.val) word c s) =
      clearByBlock ch (putField (offBlock ch + 2 * w.val) word (passWrite c s)) := by
  obtain ⟨hbase, hlow, hhigh⟩ := offBlock_range ch w
  generalize offBlock ch + 2 * w.val = off at hlow hhigh ⊢
  have hrange : 0x100 ≤ off ∧ off ≤ 0x13E := by cases ch <;> simp at hbase <;> omega
  rw [takeField_other (by unfold offRptRead; omega) (by unfold offNotice; omega)]
  have hhold : off ≠ offHoldDuty := by unfold offHoldDuty; omega
  cases ch <;> simp at hbase
  case a =>
    have ha : inRange 0x100 off 0x11E = true := by simp [inRange]; omega
    simp [liveEffect, hhold, ha]
  case b =>
    have ha : inRange 0x100 off 0x11E = false := by simp [inRange]; omega
    have hb : inRange 0x120 off 0x13E = true := by simp [inRange]; omega
    simp [liveEffect, hhold, ha, hb]

/-- A taken CUE_SEQUENTIAL: the field, then the flags. -/
theorem liveEffect_sequential (word : Word) (c : ProcCycle) (s : State) :
    liveEffect offSequential word (takeField offSequential word c s) =
      clearCues (putField offSequential word (passWrite c s)) := rfl

end Sys2Proof.Machine

open Sys2Proof Sys2Proof.Machine

/-- Settles O11: CUE_CLEAR by `clearByMask_cue`, a word of a block by `clearByBlock_cue`, CUE_SEQUENTIAL by `clearCues`. -/
theorem cueFlagsAndArmingAreCleared : Obligations.cue_flags_and_arming_are_cleared := by
  intro t o s hp hb hidle
  refine ⟨fun hi h1 h3 => ?command, fun lanes data ch w hval => ?block, fun lanes data hval hok => ?sequential⟩
  case command =>
    have hreply : replyOf .cueClear s = .accepted := by simp [replyOf, inRange, h1, h3]
    refine ⟨_, cycleRow_accepted hi ⟨hp, hb, hidle⟩ hreply, answered_command (actOn_commandSeen_count _ _ _ _), ?_⟩
    refine frame_of_command (t := t) ?_ (shadow_of_command (by simp [actOn, doCueClear]))
    apply state_ext
    case cue => simpa [Command.number, actOn, doCueClear] using clearByMask_cue h1 h3 (commandSeen t (s.commandWrite 9 hi o) s)
    all_goals simp [actOn, doCueClear]
    all_goals rfl
  case block =>
    intro word hfirst hok
    obtain ⟨hlow, hhigh, heven⟩ := offBlock_bounds ch w
    have hbase := offBlock_range ch w
    have hkind (hw : w.val ≠ 0) : (offBlock ch + 2 * w.val) / 2 ≠ offCueA / 2 ∧
        (offBlock ch + 2 * w.val) / 2 ≠ offCueB / 2 := by
      cases ch <;> simp only [offBlock, offCueA, offCueB] <;> omega
    obtain ⟨haddr, y, hy, hrow⟩ := pageWrite_taken (t := t) (o := o) hp hb hidle hval (offBlock_live ch w) (by omega)
      heven (hfirst.imp_right hkind) ((liveOk_block ch w s word).trans hok)
    rw [liveEffect_block] at hrow
    refine ⟨_, hrow, ?_⟩
    rw [← haddr]
    refine frame_of_taken (p := s.pageWrite (offBlock ch + 2 * w.val) lanes data o) hy ?_
    apply state_ext
    case cue => rw [clearByBlock_cue]; simp [seen_parts hy]
    all_goals simp [seen_parts hy, word]
  case sequential =>
    obtain ⟨haddr, y, hy, hrow⟩ := pageWrite_taken (t := t) (off := offSequential) hp hb hidle hval rfl (by decide) rfl
      (.inr (by decide)) (decide_eq_true hok)
    rw [liveEffect_sequential] at hrow
    refine ⟨_, hrow, ?_⟩
    rw [← haddr]
    refine frame_of_taken (p := s.pageWrite offSequential lanes data o) hy ?_
    apply state_ext
    case cue => simp [clearCues, seen_parts hy]
    all_goals simp [seen_parts hy]
end

section
/-! PROOF. COMMAND writes held in IDLE (R169), refused (R64, R55, R158, R168), and LOAD and UNLOAD (R171, R63). -/

namespace Sys2Proof.Machine

/-! ## Held in IDLE -/

/-- A COMMAND write in IDLE is held, whoever owns the port. -/
theorem cycleRow_held {s : State} {t : Instant} {p : ProcCycle} (hr : s.rst = false) (hw : s.arb.waiting = none)
    (hh : s.shadow.held = none) (hheld : s.holdsCommand p = true) :
    ∃ y, Seen s t y ∧ cycleRow t p s = .next (drivePins (setHeldCommand (some p) y)) := by
  have harrive (y : State) (hy : Seen s t y) : arriveCycle p y = setHeldCommand (some p) y := by
    have hyheld : y.holdsCommand p = true := by
      unfold State.holdsCommand
      rw [(seen_clock hy).1, seen_classify hy]
      exact hheld
    unfold arriveCycle completeCycle
    simp [seen_parts hy, seen_shadow hy, hw, hh, hyheld]
  unfold cycleRow
  rw [hr]
  by_cases hfirst : p.order.portFirst = true
  · exact ⟨_, seen_advance s t, by simp [hfirst, harrive _ (seen_advance s t)]⟩
  · exact ⟨_, seen_grant s t, by simp [hfirst, harrive _ (seen_grant s t)]⟩

theorem holdsCommand_pageBase {s : State} {p : ProcCycle} (hw : p.isWrite = true) (hidle : s.clock.state = .idle)
    (ha : p.addr = s.pageBase) : s.holdsCommand p = true := by
  simp [State.holdsCommand, hw, hidle, ha, classify_pageBase]

theorem frame_of_held {s y : State} {t : Instant} (hy : Seen s t y) (p : ProcCycle) :
    drivePins (setHeldCommand (some p) y) = { s.withBook (drivePins (setHeldCommand (some p) y)) with
      shadow := { s.shadow with held := some p, result := (setHeldCommand (some p) y).shadow.result } } := by
  rw [hy]
  rfl

/-! ## Refusals -/

/-- Why a known command is not accepted, and what it is answered. -/
theorem replyOf_refused {cmd : Command} {s : State}
    (h : replyByState s.clock.state s.clock.stepInProgress cmd ≠ .accepted ∨
      cmd = .step ∧ s.lineHeld = false ∧ s.ring.headReady = false ∨
      cmd = .cueClear ∧ ¬ (1 ≤ s.shadow.arg.toNat ∧ s.shadow.arg.toNat ≤ 3)) :
    replyOf cmd s ≠ .accepted ∧
      (replyByState s.clock.state s.clock.stepInProgress cmd ≠ .accepted →
        replyOf cmd s = replyByState s.clock.state s.clock.stepInProgress cmd) ∧
      (replyByState s.clock.state s.clock.stepInProgress cmd = .accepted → cmd = .step →
        replyOf cmd s = .refusedEmpty) ∧
      (cmd = .cueClear → replyOf cmd s = .refusedArg) := by
  cases cmd
  case step =>
    rcases h with h | ⟨-, hheld, hready⟩ | ⟨h, -⟩
    · simp [replyOf, h]
    · by_cases hstate : replyByState s.clock.state s.clock.stepInProgress .step = .accepted <;>
        simp [replyOf, State.lineAvailable, hheld, hready, hstate]
    · simp at h
  case cueClear =>
    rcases h with h | ⟨h, -⟩ | ⟨-, harg⟩
    · simp [replyByState] at h
    · simp at h
    · have hrange : inRange 1 s.shadow.arg.toNat 3 = false := by simp [inRange]; omega
      simp [replyOf, replyByState, hrange]
  all_goals
    obtain h | ⟨h, -⟩ | ⟨h, -⟩ := h
    · simp [replyOf, h]
    · simp at h
    · simp at h

/-- A code that names no command. -/
theorem commandOf_unknown {n : Nat} (h : inRange 1 n 9 = false) : commandOf n = none := by
  have hn : n = 0 ∨ 10 ≤ n := by simp [inRange] at h; omega
  unfold commandOf
  repeat rw [if_neg (by omega)]

end Sys2Proof.Machine

open Sys2Proof Sys2Proof.Machine

/-- Settles O16: both parts by `cycleRow_held`. -/
theorem commandWriteInIdleIsHeld : Obligations.command_write_in_idle_is_held := by
  intro s hr hw hh hidle
  refine ⟨fun t o lanes data => ?_, fun c t p hc hp ha => ?_⟩
  · have haddr : (s.pageWrite offCommand lanes data o).addr = s.pageBase :=
      (pageWrite_addr s offCommand lanes data o (by decide) (by decide)).trans (Nat.add_zero _)
    obtain ⟨y, hy, hrow⟩ := cycleRow_held (t := t) hr hw hh (holdsCommand_pageBase rfl hidle haddr)
    exact ⟨_, hrow, by simp, frame_of_held hy _⟩
  · obtain ⟨y, hy, hrow⟩ := cycleRow_held (t := t) hr hw hh (holdsCommand_pageBase hp hidle ha)
    exact ⟨_, (exec_cycleOf hc).trans hrow, by simp, frame_of_held hy _⟩

/-- Settles O17: the table state by state, the refusals of known commands by `replyOf_refused`, the unknown codes by
`commandOf_unknown`. -/
theorem refusedCommandChangesNoState : Obligations.refused_command_changes_no_state := by
  refine ⟨fun st stepping => ⟨fun cmd => ?_, fun cmd => ?_, fun cmd => ?_⟩, ?refused, ?unknown⟩
  · cases cmd <;> cases st <;> simp [replyByState]
  · cases cmd <;> cases st <;> cases stepping <;> simp [replyByState]
  · cases cmd <;> cases st <;> cases stepping <;> simp [replyByState]
  case refused =>
    intro t o hi s c n cmd hmem hopen href
    obtain ⟨rfl, hexec⟩ : n = cmd.number ∧ exec c s = cycleRow t (s.commandWrite cmd.number hi o) s := by
      simp only [List.mem_cons, Prod.mk.injEq, List.not_mem_nil, or_false] at hmem
      rcases hmem with h | h | h | h | h | h | h | h | h <;> obtain ⟨rfl, rfl, rfl⟩ := h <;> exact ⟨rfl, rfl⟩
    obtain ⟨hreply, hstate, hempty, harg⟩ := replyOf_refused href
    refine ⟨_, _, hexec.trans (cycleRow_notAccepted hi hopen hreply), answered_command (by simp), by simp [State.raisedNone],
      hstate, hempty, harg, frame_of_command (t := t) ?_ (shadow_of_command (by simp))⟩
    apply state_ext <;> simp
  case unknown =>
    intro t o lanes data s hopen hwf
    have haddr : (s.pageWrite offCommand lanes data o).addr = s.pageBase :=
      (pageWrite_addr s offCommand lanes data o (by decide) (by decide)).trans (Nat.add_zero _)
    have hcode : inRange 1 (s.pageWrite offCommand lanes data o).code 9 = false := by
      simpa [Instr.wellFormed, ProcCycle.code] using hwf
    have hrow := command_row (t := t) (c := s.pageWrite offCommand lanes data o) hopen rfl haddr
    rw [takeCommand_unknown (commandOf_unknown hcode)] at hrow
    refine ⟨_, hrow, ?_, by simp [State.raisedNone], ?_⟩
    · simp [State.answered, hcode]
    · rw [← haddr]
      refine frame_of_command (t := t) (c := s.pageWrite offCommand lanes data o) ?_ (shadow_of_command (by simp))
      rfl
end

section
/-! PROOF. LOAD and UNLOAD (R171, R63, R120, R12, R178). -/

namespace Sys2Proof.Machine

/-- A state in which a command is accepted and that is not IDLE. -/
theorem replyOf_byState {cmd : Command} {s : State} {r : Reply}
    (h : replyByState s.clock.state s.clock.stepInProgress cmd = r) (hstep : cmd ≠ .step) (hclear : cmd ≠ .cueClear) :
    replyOf cmd s = r := by
  cases cmd <;> simp_all [replyOf]

/-- The end of a command's row leaves the records raised and the keys to its action. -/
@[simp] theorem outstanding_result (n : Nat) (r : Reply) (x : State) :
    (drivePins (placeResult n r x)).outstanding = x.outstanding := rfl

@[simp] theorem key_result (n : Nat) (r : Reply) (x : State) (k : Key) :
    (drivePins (placeResult n r x)).key k = x.key k := rfl

@[simp] theorem commandSeen_key (t : Instant) (c : ProcCycle) (s : State) (k : Key) :
    (commandSeen t c s).key k = s.key k := rfl

theorem doUnload_key (s : State) (k : Key) : (doUnload s).key k = (s.key k).toIdle s.now := by
  have hkeys : (doUnload s).key k = (keysToIdle (raise .unloaded 0 0 s)).key k := by simp [doUnload, goDormant, State.key]
  rw [hkeys, keysToIdle_key]
  simp

theorem doUnload_outstanding (s : State) : (doUnload s).outstanding = (raise .unloaded 0 0 s).outstanding := by
  simp [doUnload, goDormant, outstanding_eq, Report.outstanding]

end Sys2Proof.Machine

open Sys2Proof Sys2Proof.Machine

/-- Settles O18: both commands are accepted in READY, and act as `doLoad` and `doUnload` state. -/
theorem loadAndUnloadLeaveReady : Obligations.load_and_unload_leave_ready := by
  intro t o hi s hopen hready
  have hreply (cmd : Command) (h : replyByState .ready s.clock.stepInProgress cmd = .accepted) (hstep : cmd ≠ .step)
      (hclear : cmd ≠ .cueClear) : replyOf cmd s = .accepted := replyOf_byState (hready ▸ h) hstep hclear
  refine ⟨?load, ?unload⟩
  case load =>
    refine ⟨_, cycleRow_accepted hi hopen (hreply .load rfl (by decide) (by decide)),
      answered_command (actOn_commandSeen_count _ _ _ _), frame_of_command (t := t) ?_ ?_⟩
    · apply state_ext
      case clock => apply clock_ext <;> simp [actOn, doLoad, Clock.owedOn, hready]
      all_goals simp [actOn, doLoad, Command.number]
    · simp [actOn, doLoad]
  case unload =>
    refine ⟨_, cycleRow_accepted hi hopen (hreply .unload rfl (by decide) (by decide)),
      answered_command (actOn_commandSeen_count _ _ _ _), ?raised, fun k => ?key, frame_of_command (t := t) ?_ ?_⟩
    case raised =>
      have h := raise_raised (s := s) (y := commandSeen t (s.commandWrite 2 hi o) s) (k := .unloaded) (a := 0) (d := 0)
        (by simp) (by simp)
      intro htakes
      rw [outstanding_result, actOn, doUnload_outstanding]
      exact h htakes
    case key =>
      rw [key_result, actOn, doUnload_key]
      simp [KeyRec.toIdle, Config.resetTimer]
    · apply state_ext
      case clock => apply clock_ext <;> simp [actOn, doUnload, goDormant, Clock.owedOn, hready]
      case fire => apply fire_ext <;> simp [actOn, doUnload, goDormant]
      case report => apply report_ext <;> simp [actOn, doUnload, goDormant]
      all_goals simp [actOn, doUnload, goDormant, Command.number]
    · simp [actOn, doUnload, goDormant]
end

section
/-! PROOF. START, HOLD, RESUME and STEP (R62, R52 to R55): the due taken at once, the hold, and the line held CURRENT. -/

namespace Sys2Proof.Machine

/-! ## Dues (R13, R44, R49) -/

/-- A due with a ready head fetches it. -/
theorem takeDue_ready {s : State} (h : s.ring.headReady = true) (due : Instant) :
    takeDue due s = startFetch false due (setNextDue due s) := if_pos h

/-- A due without a ready head starves the clock. -/
theorem takeDue_starves {s : State} (h : s.ring.headReady = false) (due : Instant) :
    takeDue due s = starve (setNextDue due s) := if_neg (by rw [show (setNextDue due s).ring = s.ring from rfl, h]; decide)

/-- The head slot CURRENT with its fetch begun (R13). -/
theorem startFetch_ring (frozen : Bool) (due : Instant) (s : State) :
    (startFetch frozen due s).ring = { s.ring with
      slots := s.ring.slots.set s.ring.head { s.ring.headSlot with state := .current }
      fetch := some { slot := s.ring.head, count := 0, levelFrozen := frozen }, buffer := [] } := rfl

theorem startFetch_clock (frozen : Bool) (due : Instant) (s : State) :
    (startFetch frozen due s).clock = { s.clock with lineInProgress := true, lineDue := some due } := rfl

theorem setNextDue_clock (due : Instant) (s : State) :
    (setNextDue due s).clock = { s.clock with nextDue := some (due + s.interval), waitingDue := none } := rfl

theorem starve_clock (s : State) :
    (starve s).clock = { s.clock with
      state := .starved, cause := .starvation, nextDue := none, waitingDue := none, lineInProgress := false
      lineDue := none, pendingHold := none, starvedSince := some s.now, starveTimer := s.starveExpiry
      exprCount := s.clock.countOn .starved, exprOwed := s.clock.owedOn .starved } := by
  simp [starve, State.starveExpiry]

@[simp] theorem startFetch_outstanding (frozen : Bool) (due : Instant) (s : State) :
    (startFetch frozen due s).outstanding = s.outstanding := by simp [outstanding_eq, startFetch]

@[simp] theorem setNextDue_outstanding (due : Instant) (s : State) : (setNextDue due s).outstanding = s.outstanding := rfl

theorem starve_outstanding (s : State) : ∃ rest, (starve s).outstanding = s.outstanding ++ rest :=
  raise_outstanding_grows _ _ _ _

/-- A record raised is as it was for what leaves the outstanding records alone. -/
theorem raised_congr {s x y : State} {k : ReportKind} {a d : Word} (h : s.raised x k a d)
    (hxy : y.outstanding = x.outstanding) : s.raised y k a d := fun ht => hxy.trans (h ht)

theorem enterHeld_clock (c : Cause) (s : State) :
    (enterHeld c s).clock = { s.clock with
      state := .held, cause := c, nextDue := none, waitingDue := none, pendingHold := none, starveTimer := none
      starvedSince := none, exprCount := s.clock.countOn .held, exprOwed := s.clock.owedOn .held } := by
  simp [enterHeld]

/-- HOLD at once in STARVED, and in PLAYING between lines (R52). -/
theorem requestHold_atOnce {s : State}
    (h : s.clock.state = .starved ∨ s.clock.state = .playing ∧ s.clock.lineInProgress = false) (c : Cause) :
    requestHold c s = enterHeld c s := by
  rcases h with h | ⟨h, hl⟩
  · simp [requestHold, h]
  · simp [requestHold, h, hl]

/-- HOLD within a line (R52). -/
theorem requestHold_pends {s : State} (h : s.clock.state = .playing) (hl : s.clock.lineInProgress = true) (c : Cause) :
    requestHold c s = pendHold c s := by simp [requestHold, h, hl]

end Sys2Proof.Machine

open Sys2Proof Sys2Proof.Machine

/-- Settles O20: the two cases of `requestHold`. -/
theorem holdIsTakenOrWaitsForTheBoundary : Obligations.hold_is_taken_or_waits_for_the_boundary := by
  intro t o hi s hopen
  have hreply (h : s.clock.state = .starved ∨ s.clock.state = .playing) : replyOf .hold s = .accepted := by
    rcases h with h | h <;> simp [replyOf, replyByState, h]
  refine ⟨fun h => ?atOnce, fun hplaying hline => ?pends⟩
  case atOnce =>
    have hact : actOn .hold (commandSeen t (s.commandWrite 4 hi o) s) =
        enterHeld .command (commandSeen t (s.commandWrite 4 hi o) s) := requestHold_atOnce (s := commandSeen t _ s) h .command
    have hrow := cycleRow_accepted (t := t) hi hopen (hreply (h.imp_right And.left))
    rw [Command.number, hact] at hrow
    refine ⟨_, hrow, answered_command (cmd := .hold) (by simp), raise_raised (by simp) (by simp),
      frame_of_command (t := t) ?_ (shadow_of_command (by simp))⟩
    apply state_ext
    case clock => rw [enterHeld_clock]; simp [enterHeld]
    case report => apply report_ext <;> simp [enterHeld]
    all_goals simp
  case pends =>
    have hact : actOn .hold (commandSeen t (s.commandWrite 4 hi o) s) =
        pendHold .command (commandSeen t (s.commandWrite 4 hi o) s) := requestHold_pends (s := commandSeen t _ s) hplaying hline .command
    have hrow := cycleRow_accepted (t := t) hi hopen (hreply (.inr hplaying))
    rw [Command.number, hact] at hrow
    refine ⟨_, hrow, answered_command (cmd := .hold) (by simp), by simp [State.raisedNone],
      frame_of_command (t := t) ?_ (shadow_of_command (by simp))⟩
    apply state_ext
    case clock => simp [pendHold]
    all_goals simp

/-- The start values of START (R62, R24, R29, R68). -/
def startValues (s : State) : State :=
  updClock (fun k => { k with exprCount := 0, exprOwed := 0 })
    (startSides (setShift 0 (updTrack startTrack (setExpected s.shadow.arg s))))

@[simp] theorem startValues_parts (s : State) :
    (startValues s).now = s.now ∧ (startValues s).ring = s.ring ∧ (startValues s).shadow = s.shadow ∧
      (startValues s).report = s.report ∧ (startValues s).track = { startTrack s.track with shift := 0 } ∧
      (startValues s).expr = { s.expr with
        bass := startSide s.expr.base, treble := startSide s.expr.base, soft := false } ∧
      (startValues s).clock = { s.clock with expected := s.shadow.arg, exprCount := 0, exprOwed := 0 } := by
  simp [startValues, startSides]
  rfl

@[simp] theorem startValues_keeps (s : State) :
    (startValues s).pending = s.pending ∧ (startValues s).rst = s.rst ∧ (startValues s).inh = s.inh ∧ (startValues s).ntc = s.ntc ∧
      (startValues s).pwait = s.pwait ∧ (startValues s).spb = s.spb ∧ (startValues s).pd = s.pd ∧ (startValues s).kdNext = s.kdNext ∧
      (startValues s).mem = s.mem ∧ (startValues s).arb = s.arb ∧ (startValues s).sched = s.sched ∧ (startValues s).fire = s.fire ∧
      (startValues s).keys = s.keys ∧ (startValues s).heat = s.heat ∧ (startValues s).pedals = s.pedals ∧ (startValues s).cue = s.cue := by
  simp [startValues, startSides]

theorem doStart_eq (s : State) :
    doStart s = takeDue s.now (raise .started s.headWord s.shadow.arg (setPlay .playing .noCause (startValues s))) := by
  have hunfold : doStart s = takeDue (startValues s).now
    (raise .started (startValues s).headWord (startValues s).shadow.arg (setPlay .playing .noCause (startValues s))) := rfl
  rw [hunfold, State.headWord, State.headWord]
  simp

/-- Settles O19: the start values are taken (`startValues_parts`), the START reported, and its instant is a due, which fetches or
starves. -/
theorem startTakesTheFirstDue : Obligations.start_takes_the_first_due := by
  intro t o hi s hopen hstate started
  have hreply : replyOf .start s = .accepted := by simp [replyOf, replyByState, hstate]
  have hrow := cycleRow_accepted (t := t) hi hopen hreply
  have hhead : (commandSeen t (s.commandWrite 3 hi o) s).headWord = s.headWord := rfl
  have harg : (commandSeen t (s.commandWrite 3 hi o) s).shadow.arg = s.shadow.arg := rfl
  have hnow : (commandSeen t (s.commandWrite 3 hi o) s).now = s.at t := rfl
  rw [Command.number, actOn, doStart_eq, hhead, harg, hnow] at hrow
  generalize hz : setPlay .playing .noCause (startValues (commandSeen t (s.commandWrite 3 hi o) s)) = z at hrow
  have hraised : s.raised (raise .started s.headWord s.shadow.arg z) .started s.headWord s.shadow.arg :=
    raise_raised (by simp [← hz]) (by simp [← hz, startTrack])
  refine ⟨fun hready => ?fetches, fun hready => ?starves⟩
  case fetches =>
    rw [takeDue_ready (by simpa [← hz] using hready)] at hrow
    refine ⟨_, hrow, answered_command (cmd := .start) (by simp [← hz]), raised_congr hraised (by simp),
      frame_of_command (t := t) ?_ (shadow_of_command (by simp [← hz]))⟩
    subst hz
    apply state_ext
    case clock =>
      simp [startFetch_clock, setNextDue_clock, State.interval, Clock.countOn, Clock.owedOn, hstate]
      rfl
    case ring => simp [startFetch_ring]
    case report => apply report_ext <;> simp
    all_goals simp
  case starves =>
    rw [takeDue_starves (by simpa [← hz] using hready)] at hrow
    refine ⟨_, hrow, answered_command (cmd := .start) (by simp [← hz]), raised_then hraised (starve_outstanding _),
      frame_of_command (t := t) ?_ (shadow_of_command (by simp [← hz]))⟩
    subst hz
    apply state_ext
    case clock =>
      rw [starve_clock]
      simp [setNextDue_clock, State.starveExpiry, Clock.countOn, Clock.owedOn, hstate]
      rfl
    case report => apply report_ext <;> simp [starve]
    all_goals simp
end

section
/-! PROOF. RESUME and STEP (R54, R55, R18, R24): a line held CURRENT is decoded from the buffer, a ready head is fetched. -/

namespace Sys2Proof.Machine

/-- The line held CURRENT goes to its decode (R23, R81). -/
theorem decodeHeld_parts (through : Nat) (due : Instant) (s : State) :
    (decodeHeld through due s).track =
        { s.track with decode := some { frozenThrough := through }, lastTag := s.ring.lineTag } ∧
      (decodeHeld through due s).clock = { s.clock with lineInProgress := true, lineDue := some due } ∧
      (decodeHeld through due s).expr = { s.expr with sample := some (takeSample s.shadow) } := ⟨rfl, rfl, rfl⟩

@[simp] theorem decodeHeld_outstanding (through : Nat) (due : Instant) (s : State) :
    (decodeHeld through due s).outstanding = s.outstanding := by simp [outstanding_eq]

/-- PLAYING again, the tracking aids cleared, before the due at the RESUME instant (R54, R24). -/
def resumeSeen (s : State) : State :=
  updTrack (fun t => { t with candidate := none, candidateCount := 0, noEdge := 0 })
    (raise .resumed 0 (causeWord s.clock.cause) (setPlay .playing .noCause s))

@[simp] theorem resumeSeen_keeps (s : State) :
    (resumeSeen s).now = s.now ∧ (resumeSeen s).pending = s.pending ∧ (resumeSeen s).rst = s.rst ∧
      (resumeSeen s).inh = s.inh ∧ (resumeSeen s).ntc = s.ntc ∧ (resumeSeen s).pwait = s.pwait ∧
      (resumeSeen s).spb = s.spb ∧ (resumeSeen s).pd = s.pd ∧ (resumeSeen s).kdNext = s.kdNext ∧
      (resumeSeen s).mem = s.mem ∧ (resumeSeen s).arb = s.arb ∧ (resumeSeen s).ring = s.ring ∧
      (resumeSeen s).expr = s.expr ∧ (resumeSeen s).sched = s.sched ∧ (resumeSeen s).fire = s.fire ∧
      (resumeSeen s).keys = s.keys ∧ (resumeSeen s).heat = s.heat ∧ (resumeSeen s).pedals = s.pedals ∧
      (resumeSeen s).cue = s.cue ∧ (resumeSeen s).shadow = s.shadow := by simp [resumeSeen]

/-- From HELD the expression count goes on with the PLAYING time owed to it (R46, log 22). -/
theorem resumeSeen_clock {s : State} (h : s.clock.state = .held) :
    (resumeSeen s).clock = { s.clock with
      state := .playing, cause := .noCause, exprCount := s.clock.exprCount + s.clock.exprOwed, exprOwed := 0 } := by
  simp [resumeSeen, Clock.countOn, Clock.owedOn, h]

theorem resumeSeen_track (s : State) :
    (resumeSeen s).track = { s.track with candidate := none, candidateCount := 0, noEdge := 0 } := rfl

theorem resumeSeen_report (s : State) : OnlyRaised s.report (resumeSeen s).report :=
  raise_onlyRaised .resumed 0 (causeWord s.clock.cause) (setPlay .playing .noCause s)

theorem resumeSeen_raised {s y : State} (hr : y.report = s.report) (hl : y.track.lastTag = s.track.lastTag) :
    s.raised (resumeSeen y) .resumed 0 (causeWord y.clock.cause) :=
  raised_congr (raise_raised (y := setPlay .playing .noCause y) hr hl) rfl

theorem starve_onlyRaised (s : State) : OnlyRaised s.report (starve s).report := by
  apply report_ext <;> simp [starve]

theorem doResume_held {s : State} (h : s.lineHeld = true) :
    doResume s = decodeHeld Config.lastStage s.now (setNextDue s.now (resumeSeen s)) := if_pos h

theorem doResume_due {s : State} (h : s.lineHeld = false) : doResume s = takeDue s.now (resumeSeen s) :=
  if_neg (by simp [h])

/-- Outside PLAYING no time is counted (R46). -/
theorem commandSeen_clock {s : State} (h : s.clock.state ≠ .playing) (t : Instant) (c : ProcCycle) :
    (commandSeen t c s).clock = s.clock := by
  have hcount : (advance t s).clock = s.clock := by simp [h]
  exact hcount

theorem lineHeld_commandSeen (t : Instant) (c : ProcCycle) (s : State) : (commandSeen t c s).lineHeld = s.lineHeld := rfl

end Sys2Proof.Machine

open Sys2Proof Sys2Proof.Machine

/-- Settles O21: after `resumeSeen`, the line held CURRENT is decoded, or the RESUME instant is a due. -/
theorem resumeTakesADueAtOnce : Obligations.resume_takes_a_due_at_once := by
  intro t o hi s hopen hstate hstep cleared playing resumed
  have hreply : replyOf .resume s = .accepted := by simp [replyOf, replyByState, hstate, hstep]
  have hrow := cycleRow_accepted (t := t) hi hopen hreply
  rw [Command.number, actOn] at hrow
  generalize hz : commandSeen t (s.commandWrite 5 hi o) s = z at hrow
  have hheld : z.lineHeld = s.lineHeld := by rw [← hz]; rfl
  have hclock : z.clock = s.clock := by rw [← hz, commandSeen_clock (by simp [hstate])]
  have hraised : s.raised (resumeSeen z) .resumed 0 (toWord (causeCode s.clock.cause)) := by
    have h := resumeSeen_raised (s := s) (y := z) (by simp [← hz]) (by simp [← hz])
    rwa [hclock] at h
  have hreport := resumeSeen_report z
  have hplay := resumeSeen_clock (s := z) (by rw [hclock, hstate])
  refine ⟨fun hline => ?held, fun hline hready => ?fetches, fun hline hready => ?starves⟩
  case held =>
    rw [doResume_held (hheld.trans hline)] at hrow
    refine ⟨_, hrow, answered_command (cmd := .resume) (by simp [← hz]), raised_congr hraised (by simp),
      frame_of_command (t := t) ?_ (shadow_of_command (by simp [← hz]))⟩
    subst hz
    apply state_ext
    case clock =>
      rw [(decodeHeld_parts _ _ _).2.1, setNextDue_clock, hplay, hclock]
      simp [playing, State.interval]
      rfl
    case track =>
      rw [(decodeHeld_parts _ _ _).1]
      simp [resumeSeen_track, cleared]
      rfl
    case expr =>
      rw [(decodeHeld_parts _ _ _).2.2]
      simp
      rfl
    case report => simpa [OnlyRaised] using hreport
    all_goals simp
  case fetches =>
    rw [doResume_due (hheld.trans hline), takeDue_ready (by simpa [← hz] using hready)] at hrow
    refine ⟨_, hrow, answered_command (cmd := .resume) (by simp [← hz]), raised_congr hraised (by simp),
      frame_of_command (t := t) ?_ (shadow_of_command (by simp [← hz]))⟩
    subst hz
    apply state_ext
    case clock =>
      rw [startFetch_clock, setNextDue_clock, hplay, hclock]
      simp [playing, State.interval]
      rfl
    case track => simp [resumeSeen_track, cleared]
    case ring => simp [startFetch_ring]
    case report => simpa [OnlyRaised] using hreport
    all_goals simp
  case starves =>
    rw [doResume_due (hheld.trans hline), takeDue_starves (by simpa [← hz] using hready)] at hrow
    refine ⟨_, hrow, answered_command (cmd := .resume) (by simp [← hz]), raised_then hraised (by simpa using starve_outstanding (setNextDue z.now (resumeSeen z))),
      frame_of_command (t := t) ?_ (shadow_of_command (by simp [← hz]))⟩
    subst hz
    apply state_ext
    case clock =>
      rw [starve_clock, setNextDue_clock, hplay, hclock]
      simp [State.starveExpiry, Clock.countOn, Clock.owedOn, Config.expressionPeriod, Nat.min_comm]
      rfl
    case track => simp [resumeSeen_track, cleared]
    case report =>
      have hstarve := starve_onlyRaised (setNextDue (commandSeen t (s.commandWrite 5 hi o) s).now
        (resumeSeen (commandSeen t (s.commandWrite 5 hi o) s)))
      simpa [OnlyRaised] using hreport.trans hstarve
    all_goals simp

/-- Settles O22: a line held CURRENT is decoded, else the ready head is fetched. -/
theorem stepDecodesOrFetchesOneLine : Obligations.step_decodes_or_fetches_one_line := by
  intro t o hi s hopen hstate hstep
  have hreply (h : s.lineAvailable = true) : replyOf .step s = .accepted := by
    simp [replyOf, replyByState, hstate, hstep, h]
  refine ⟨fun hline => ?held, fun hline hready => ?fetches⟩
  case held =>
    have hrow := cycleRow_accepted (t := t) hi hopen (hreply (by simp [State.lineAvailable, hline]))
    have hact : actOn .step (commandSeen t (s.commandWrite 6 hi o) s) =
        decodeHeld 0 (s.at t) (updClock (fun k => { k with stepInProgress := true })
          (commandSeen t (s.commandWrite 6 hi o) s)) := if_pos hline
    rw [Command.number, hact] at hrow
    refine ⟨_, hrow, answered_command (cmd := .step) (by simp), frame_of_command (t := t) ?_ (shadow_of_command (by simp))⟩
    apply state_ext
    case clock => simp [(decodeHeld_parts _ _ _).2.1]
    case track => simp [(decodeHeld_parts _ _ _).1]
    case expr =>
      simp [(decodeHeld_parts _ _ _).2.2]
      rfl
    all_goals simp
  case fetches =>
    have hrow := cycleRow_accepted (t := t) hi hopen (hreply (by simp [State.lineAvailable, hready]))
    have hact : actOn .step (commandSeen t (s.commandWrite 6 hi o) s) =
        startFetch false (s.at t) (updClock (fun k => { k with stepInProgress := true })
          (commandSeen t (s.commandWrite 6 hi o) s)) := if_neg (by simp [lineHeld_commandSeen, hline])
    rw [Command.number, hact] at hrow
    refine ⟨_, hrow, answered_command (cmd := .step) (by simp), frame_of_command (t := t) ?_ (shadow_of_command (by simp))⟩
    apply state_ext
    case clock => simp [startFetch_clock]
    case ring => simp [startFetch_ring]
    all_goals simp
end

section
/-! PROOF. STOP, starvation and SILENCE (R51, R59, R61): STOPPING, the keys, the firing count, and no report. -/

namespace Sys2Proof.Machine

/-! ## The blocks of two states alike -/

/-- `y` has the blocks of `s`; the memory, the port, the instant, the PLAYING time counted and the bookkeeping of the shadow may
differ. -/
structure Blocks (s y : State) : Prop where
  clock : y.clock = { s.clock with exprCount := y.clock.exprCount }
  track : y.track = s.track
  ring : y.ring = s.ring
  cue : y.cue = s.cue
  sched : y.sched = s.sched
  fire : y.fire = s.fire
  keys : y.keys = s.keys
  pedals : y.pedals = s.pedals
  words : y.shadow.words = s.shadow.words
  report : y.report = s.report

theorem seen_blocks {s y : State} {t : Instant} (hy : Seen s t y) : Blocks s y where
  clock := seen_clock_eq hy
  track := by simp [seen_parts hy]
  ring := by simp [seen_parts hy]
  cue := by simp [seen_parts hy]
  sched := by simp [seen_parts hy]
  fire := by simp [seen_parts hy]
  keys := by simp [seen_parts hy]
  pedals := by simp [seen_parts hy]
  words := by simp [seen_shadow hy]
  report := by simp [seen_parts hy]

theorem commandSeen_blocks (t : Instant) (c : ProcCycle) (s : State) : Blocks s (commandSeen t c s) := by
  constructor <;> simp

theorem result_blocks (n : Nat) (r : Reply) (x : State) : Blocks x (drivePins (placeResult n r x)) := by
  constructor <;> simp

theorem drivePins_blocks (x : State) : Blocks x (drivePins x) := by constructor <;> simp

theorem result_clock (n : Nat) (r : Reply) (x : State) : (drivePins (placeResult n r x)).clock = x.clock := rfl

theorem drivePins_clock (x : State) : (drivePins x).clock = x.clock := rfl

theorem Blocks.key {s y : State} (h : Blocks s y) (k : Key) : y.key k = s.key k := by rw [State.key, State.key, h.keys]

theorem Blocks.recovery {s y : State} (h : Blocks s y) : y.shadow.recovery = s.shadow.recovery := by
  unfold Shadow.recovery Shadow.nat Shadow.word
  rw [h.words]

/-! ## The firing count under SILENCE (R93, R99) -/

theorem firingKeys_eq_zero {s : State} (h : ∀ k, (s.key k).state ≠ .firing) : s.firingKeys = 0 := by
  rw [State.firingKeys, List.countP_eq_zero]
  have hall := (Bank.all_data s.keys (fun r => decide (r.state ≠ .firing))).mpr fun i => decide_eq_true (h i)
  intro r hr
  simpa using List.all_eq_true.mp hall r hr

/-- A key that goes to RELEASING takes as much off the firing count as off the keys that are FIRING. -/
theorem toReleasing_excess (k : Key) (s : State) :
    (toReleasing k s).fire.count - (toReleasing k s).firingKeys = s.fire.count - s.firingKeys := by
  have hkeys : (toReleasing k s).firingKeys = s.firingKeys - (s.key k).firingOne := by
    have hupd := firingKeys_updKey k (fun r => r.releasing (s.now + Config.unit * s.shadow.recovery)) s
    have hreleasing : ((s.key k).releasing (s.now + Config.unit * s.shadow.recovery)).firingOne = 0 := by
      simp [KeyRec.firingOne, KeyRec.releasing]
    rw [hreleasing] at hupd
    simpa [toReleasing, State.firingKeys] using hupd
  have hle := firingOne_le_firingKeys s k
  by_cases h : (s.key k).state = .firing
  · have hone : (s.key k).firingOne = 1 := by simp [KeyRec.firingOne, h]
    have hcount : (toReleasing k s).fire.count = s.fire.count - 1 := by simp [toReleasing, leaveFiring, h]
    omega
  · have hone : (s.key k).firingOne = 0 := by simp [KeyRec.firingOne, h]
    rw [hkeys, toReleasing_fire k s h, hone, Nat.sub_zero]

theorem silenceKeys_excess (s : State) :
    (silenceKeys s).fire.count - (silenceKeys s).firingKeys = s.fire.count - s.firingKeys := by
  unfold silenceKeys
  refine foldl_keeps (fun x : State => x.fire.count - x.firingKeys) _ (fun x k => ?_) _ _
  split
  · exact toReleasing_excess k x
  · rfl

/-- After SILENCE no key is FIRING, and the firing count has fallen by the number that were. -/
theorem silenceKeys_count (s : State) : (silenceKeys s).fire.count = s.fire.count - s.firingKeys := by
  have hzero : (silenceKeys s).firingKeys = 0 := by
    refine firingKeys_eq_zero fun k => ?_
    rw [silenceKeys_key]
    split
    · simp [KeyRec.releasing]
    · next hquiet => exact fun hfiring => hquiet (.inl hfiring)
  rw [← silenceKeys_excess, hzero, Nat.sub_zero]

/-! ## STOPPING entered -/

section

variable {s y z : State} (hy : Blocks s y)

include hy

/-- STOP and starvation: the blocks as `stoppedFrom` says, the firing count and the Report Writer as they were, HOLDING keys
RELEASING, keys with a waiting strike told. -/
theorem enterStopping_stops {c : Cause} (hz : Blocks (enterStopping c y) z)
    (hclock : z.clock = (enterStopping c y).clock) :
    s.stoppedFrom z y.now c ∧ z.fire.count = s.fire.count ∧ s.raisedNone z ∧
      ∀ k, z.key k =
        if (s.key k).state = .holding then (s.keyTold k).releasing (y.now + 100 * s.shadow.recovery)
        else s.keyTold k := by
  have hstopped : y.stoppedFrom z y.now c := stoppedFrom_of stopKeys stopKeys_others rfl
    ⟨hclock, hz.track, hz.ring, hz.cue, hz.sched, hz.fire, hz.pedals⟩
  refine ⟨stoppedFrom_congr hstopped hy.clock hy.track hy.ring hy.cue hy.pedals, ?_, ?_, fun k => ?_⟩
  · rw [hz.fire, ← hy.fire]
    simp [enterStopping, stopKeys_fire, stopClock]
  · rw [State.raisedNone, hz.report, ← hy.report]
    simp
  · rw [hz.key, enterStopping_key, keyTold_congr hy.keys (by rw [hy.fire]), hy.key, hy.recovery]

/-- SILENCE: the same, with FIRING keys cut as well and the firing count brought down. -/
theorem enterSilence_stops (hz : Blocks (enterSilence y) z) (hclock : z.clock = (enterSilence y).clock) :
    s.stoppedFrom z y.now .silence ∧ s.raisedNone z ∧ z.fire.count = s.fire.count - s.firingKeys ∧
      ∀ k, z.key k =
        if (s.key k).state = .firing ∨ (s.key k).state = .holding then
          (s.keyTold k).releasing (y.now + 100 * s.shadow.recovery)
        else s.keyTold k := by
  have hstopped : y.stoppedFrom z y.now .silence := stoppedFrom_of silenceKeys silenceKeys_others rfl
    ⟨hclock, hz.track, hz.ring, hz.cue, hz.sched, hz.fire, hz.pedals⟩
  refine ⟨stoppedFrom_congr hstopped hy.clock hy.track hy.ring hy.cue hy.pedals, ?_, ?_, fun k => ?_⟩
  · rw [State.raisedNone, hz.report, ← hy.report]
    simp
  · have hfiring : (stopClock (setPlay .stopping .silence y)).firingKeys = s.firingKeys :=
      firingKeys_congr fun k => by
        rw [stopClock_key, keyTold_state]
        simp [State.key, hy.keys]
    have hcount : (stopClock (setPlay .stopping .silence y)).fire.count = s.fire.count := by
      simp [stopClock, hy.fire]
    rw [hz.fire, ← hfiring, ← hcount, ← silenceKeys_count]
    simp [enterSilence]
  · rw [hz.key, enterSilence_key, keyTold_congr hy.keys (by rw [hy.fire]), hy.key, hy.recovery]

end

end Sys2Proof.Machine

open Sys2Proof Sys2Proof.Machine

/-- Settles O23: both rows are `enterStopping`. -/
theorem stopAndStarvationEnterStopping : Obligations.stop_and_starvation_enter_stopping := by
  intro t s stopped
  refine ⟨fun o hi hopen hstate => ?stop, fun e hr hstarved htimer he => ?starvation⟩
  case stop =>
    have hreply : replyOf .stop s = .accepted := by
      rcases hstate with h | h | h | h <;> simp [replyOf, replyByState, h]
    have hnow : (commandSeen t (s.commandWrite 7 hi o) s).now = s.at t := by simp
    have hstops := enterStopping_stops (c := .command) (commandSeen_blocks t (s.commandWrite 7 hi o) s)
      (result_blocks 7 .accepted _) (result_clock _ _ _)
    rw [hnow] at hstops
    have hrow := cycleRow_accepted (t := t) hi hopen hreply
    rw [Command.number, actOn, doStop] at hrow
    refine ⟨_, hrow, answered_command (cmd := .stop) (by simp), hstops,
      frame_of_command (t := t) ?_ (shadow_of_command (by simp))⟩
    apply state_ext
    case arb => apply arbiter_ext <;> simp
    all_goals simp
  case starvation =>
    obtain ⟨y, hy, hrow, -⟩ := partRow_seen (t := t) hr
    have heffect : onStarvationExpiry y = enterStopping .starvation y := by
      simp [onStarvationExpiry, seen_clock hy, htimer, hstarved, seen_parts hy, he]
    have hrow := hrow onStarvationExpiry
    rw [heffect] at hrow
    have hstops := enterStopping_stops (c := .starvation) (seen_blocks hy) (drivePins_blocks _) (drivePins_clock _)
    rw [(seen_parts hy).1] at hstops
    refine ⟨_, hrow, hstops, ?_⟩
    apply state_ext
    case arb => apply arbiter_ext <;> simp [seen_parts hy]
    case shadow => simpa using seen_shadow_eq hy
    all_goals simp [seen_parts hy]

/-- Settles O24: the row is `enterSilence`. -/
theorem silenceCutsEveryStruckKey : Obligations.silence_cuts_every_struck_key := by
  intro t o hi s hopen hloading
  have hreply : replyOf .silence s = .accepted := by
    have hidle := hopen.2.2
    cases h : s.clock.state <;> simp_all [replyOf, replyByState]
  have hnow : (commandSeen t (s.commandWrite 8 hi o) s).now = s.at t := by simp
  have hstops := enterSilence_stops (commandSeen_blocks t (s.commandWrite 8 hi o) s) (result_blocks 8 .accepted _)
    (result_clock _ _ _)
  rw [hnow] at hstops
  obtain ⟨hstopped, hnone, hcount, hkey⟩ := hstops
  have hrow := cycleRow_accepted (t := t) hi hopen hreply
  rw [Command.number, actOn, doSilence] at hrow
  refine ⟨_, hrow, answered_command (cmd := .silence) (by simp), hstopped, hnone, hcount, fun hfiring => ?_, hkey,
    frame_of_command (t := t) ?_ (shadow_of_command (by simp))⟩
  · rw [hcount, show s.fire.count = s.firingKeys from hfiring, Nat.sub_self]
  · apply state_ext
    case arb => apply arbiter_ext <;> simp
    all_goals simp
end

section
/-! PROOF. COMMAND_ARG (R168, R169): the write that the intake snoops, and the part's read of it for a COMMAND write held in
IDLE. -/

namespace Sys2Proof.Machine

/-! ## A command taken in IDLE (R64, R158) -/

/-- The reply of IDLE to a code other than LOAD's. -/
def idleReply (code arg : Nat) : Reply :=
  if code = 0 ∨ 10 ≤ code then .refusedUnknown
  else if code = 9 then (if 1 ≤ arg ∧ arg ≤ 3 then .accepted else .refusedArg)
  else .refusedState

/-- A mask that selects no channel clears nothing. -/
theorem clearByMask_none {mask : Nat} (h : mask = 0 ∨ 3 < mask) (s : State) : clearByMask mask s = s := by
  unfold clearByMask
  rw [if_neg (by omega), if_neg (by omega), if_neg (by omega)]

/-- What a command other than LOAD does in IDLE: CUE_CLEAR alone acts. -/
def idleActed (n : Nat) (s : State) : State := if n = 9 then clearByMask s.shadow.arg.toNat s else s

@[simp] theorem idleActed_keeps (n : Nat) (s : State) :
    (idleActed n s).now = s.now ∧ (idleActed n s).pending = s.pending ∧ (idleActed n s).rst = s.rst ∧ (idleActed n s).inh = s.inh ∧
      (idleActed n s).ntc = s.ntc ∧ (idleActed n s).pwait = s.pwait ∧ (idleActed n s).spb = s.spb ∧ (idleActed n s).pd = s.pd ∧
      (idleActed n s).kdNext = s.kdNext ∧ (idleActed n s).mem = s.mem ∧ (idleActed n s).arb = s.arb ∧ (idleActed n s).ring = s.ring ∧
      (idleActed n s).track = s.track ∧ (idleActed n s).clock = s.clock ∧ (idleActed n s).expr = s.expr ∧ (idleActed n s).sched = s.sched ∧
      (idleActed n s).fire = s.fire ∧ (idleActed n s).keys = s.keys ∧ (idleActed n s).heat = s.heat ∧ (idleActed n s).pedals = s.pedals ∧
      (idleActed n s).shadow = s.shadow ∧ (idleActed n s).report = s.report := by
  unfold idleActed
  split <;> simp

/-- Only CUE_CLEAR with a mask that selects a channel touches the cue flags. -/
theorem idleActed_other {n : Nat} {s : State} (h : n ≠ 9 ∨ s.shadow.arg.toNat = 0 ∨ 3 < s.shadow.arg.toNat) :
    idleActed n s = s := by
  unfold idleActed
  split
  · exact clearByMask_none (by omega) s
  · rfl

/-- In IDLE any command but LOAD is counted and answered, and of them CUE_CLEAR alone acts. -/
theorem takeCommand_idle {n : Nat} {s : State} (hidle : s.clock.state = .idle) (hn : n ≠ 1) :
    takeCommand n s = placeResult n (idleReply n s.shadow.arg.toNat)
      (idleActed n (bumpCount s)) := by
  by_cases hunknown : n = 0 ∨ 10 ≤ n
  · rw [takeCommand_unknown (commandOf_unknown (by simp [inRange]; omega)), idleReply, if_pos hunknown,
      idleActed_other (.inl (by omega))]
  · by_cases h9 : n = 9
    · subst h9
      by_cases harg : 1 ≤ s.shadow.arg.toNat ∧ s.shadow.arg.toNat ≤ 3
      · rw [takeCommand_accepted (c := .cueClear) rfl (by simp [replyOf, inRange, harg])]
        simp [idleReply, idleActed, harg, actOn, doCueClear]
      · have hreply : replyOf .cueClear (bumpCount s) = .refusedArg := by
          have hrange : inRange 1 s.shadow.arg.toNat 3 = false := by simp [inRange]; omega
          simp [replyOf, hrange]
        rw [takeCommand_refused (c := .cueClear) rfl (by simp [hreply]), hreply, idleActed_other (.inr (by simpa using by omega))]
        simp [idleReply, harg]
    · rw [idleReply, if_neg hunknown, if_neg h9, idleActed_other (.inl h9)]
      obtain ⟨cmd, hcmd, hreply⟩ : ∃ cmd, commandOf n = some cmd ∧ replyOf cmd (bumpCount s) = .refusedState := by
        obtain rfl | rfl | rfl | rfl | rfl | rfl | rfl :
          n = 2 ∨ n = 3 ∨ n = 4 ∨ n = 5 ∨ n = 6 ∨ n = 7 ∨ n = 8 := by omega
        all_goals exact ⟨_, rfl, by simp [replyOf, replyByState, hidle]⟩
      rw [takeCommand_refused hcmd (by simp [hreply]), hreply]

/-- LOAD is accepted in IDLE. -/
theorem takeCommand_idle_load {s : State} (hidle : s.clock.state = .idle) :
    takeCommand 1 s = placeResult 1 .accepted (doLoad (bumpCount s)) :=
  takeCommand_accepted (c := .load) rfl (by simp [replyOf, replyByState, hidle])

/-- No command taken in IDLE makes the Cue Unit active. -/
theorem takeCommand_idle_unwatched {n : Nat} {s : State} (hidle : s.clock.state = .idle) :
    (takeCommand n s).watching = false := by
  by_cases hn : n = 1
  · rw [hn, takeCommand_idle_load hidle]
    simp [State.watching, doLoad]
  · rw [takeCommand_idle hidle hn]
    simp [State.watching, hidle]

/-- No command touches the processor cycle that waits. -/
theorem takeCommand_waiting (n : Nat) (s : State) : (takeCommand n s).arb.waiting = s.arb.waiting := by
  have hact (k : Command) (x : State) : (actOn k x).arb.waiting = x.arb.waiting := by
    cases k <;> simp [actOn, doLoad, doStop, doSilence]
  unfold takeCommand
  dsimp only
  (repeat' split) <;> simp [hact]

/-! ## The read of COMMAND_ARG (R169) -/

/-- The state in which a held COMMAND write is taken: the argument is read, and the write is no longer held. -/
def argTaken (t : Instant) (s : State) : State :=
  setHeldCommand none (setArg (readWord s.mem (s.pageBase + offArg)) (setOwner none (advance t s)))

theorem exec_commandArgRead {s : State} {t : Instant} {c : ProcCycle} (hr : s.rst = false)
    (ho : s.arb.owner = some .argRead) (hw : s.arb.waiting = none) (hh : s.shadow.held = some c)
    (hidle : s.clock.state = .idle) :
    exec (.commandArgRead t) s = .next (drivePins (takeCommand c.code (passWrite c (argTaken t s)))) := by
  have hunwatched : (argTaken t s).watching = false := watching_idle (by simpa [argTaken] using hidle)
  have hrelease : releaseCommand c (readWord s.mem (s.pageBase + offArg)) (setOwner none (advance t s)) =
      takeCommand c.code (passWrite c (argTaken t s)) :=
    showAround_unwatched c (commandTaken c) hunwatched (takeCommand_idle_unwatched (by simpa [argTaken] using hidle))
  have heffect : onCommandArgRead (advance t s) = serveWaiting (releaseCommand c
      (readWord s.mem (s.pageBase + offArg)) (setOwner none (advance t s))) := by
    unfold onCommandArgRead
    have ho' : (advance t s).arb.owner = some .argRead := ho
    have hh' : (advance t s).shadow.held = some c := hh
    rw [ho', hh']
    rfl
  refine (partRow_owned hr ho).trans ?_
  rw [heffect, hrelease, serveWaiting_none]
  simp [argTaken, takeCommand_waiting, hw]

end Sys2Proof.Machine

open Sys2Proof Sys2Proof.Machine

/-- Settles O15: the write by `argWrite`; the read of the argument by `exec_commandArgRead`, then LOAD by
`takeCommand_idle_load` and any other code by `takeCommand_idle`. -/
theorem commandArgumentIsSnoopedOrRead : Obligations.command_argument_is_snooped_or_read := by
  refine ⟨?snooped, ?read⟩
  case snooped =>
    rintro t o lanes data s ⟨hp, hb, hidle⟩
    obtain ⟨y, hy, -, hrow⟩ := cycleRow_seen (t := t) (c := s.pageWrite offArg lanes data o) hp
    have hyidle : y.clock.state ≠ .idle := by rw [(seen_clock hy).1]; exact hidle
    have hclass : y.classify (s.pageWrite offArg lanes data o).addr = .setup offArg :=
      (seen_classify hy _).trans (pageWrite_classify s lanes data o (by decide) (by decide))
    have heffect : writeEffect (s.pageWrite offArg lanes data o) y =
        setArg (laneMerge lanes y.shadow.arg data) (passWrite (s.pageWrite offArg lanes data o) y) := by
      rw [writeEffect_setup hclass]
      exact if_neg hyidle
    have hby := seen_noBusCue hy hb
    rw [completeCycle_plain _ rfl (holdsCommand_outside_idle _ hyidle) hby, heffect] at hrow
    · refine ⟨_, hrow, ?_⟩
      rw [← pageWrite_addr s offArg lanes data o (by decide) (by decide), hy]
      rfl
    · rw [heffect]
      exact (noBusCue_congr (by simp)).mpr hby
  case read =>
    intro t c s hr ho hw hh hidle arg
    have hrow := exec_commandArgRead (t := t) hr ho hw hh hidle
    have hpassed : (passWrite c (argTaken t s)).clock.state = .idle := by simpa [argTaken] using hidle
    by_cases hcode : c.code = 1
    case pos =>
      rw [hcode, takeCommand_idle_load hpassed] at hrow
      refine ⟨_, hrow, ?_, ?_, fun _ => ⟨?_, ?_⟩, fun h => absurd hcode h⟩
      · simp [argTaken, hw, doLoad]
      · simp [argTaken, doLoad]
      · simp [State.answered, argTaken, doLoad, inRange]
      · apply state_ext
        case clock => apply clock_ext <;> simp [argTaken, doLoad, Clock.owedOn, hidle]
        case arb => apply arbiter_ext <;> simp [argTaken, doLoad]
        all_goals simp [argTaken, doLoad, ProcCycle.written, arg]
    case neg =>
      rw [takeCommand_idle hpassed hcode] at hrow
      refine ⟨_, hrow, ?_, ?_, fun h => absurd h hcode, fun _ => ⟨?_, ?_, ?_, ?_⟩⟩
      · simp [argTaken, hw]
      · simp [argTaken]
      · have hecho : (if 1 ≤ c.code ∧ c.code ≤ 9 then c.code else 0) = if c.code ≤ 9 then c.code else 0 := by
          split <;> split <;> omega
        simp [State.answered, inRange, argTaken, idleReply, hecho, arg]
      · intro h
        rw [idleActed_other h]
        simp [argTaken]
      · intro h9 h1 h3
        have hcue := clearByMask_cue h1 h3 (bumpCount (passWrite c (argTaken t s)))
        simpa [idleActed, h9, argTaken, arg] using hcue
      · apply state_ext <;> simp [argTaken, ProcCycle.written, arg]
end

section
/-! PROOF. Ring writes that complete a line or are withheld (R6, R9, R50), and the line due (R44, R45, R49). -/

namespace Sys2Proof.Machine

/-! ## The frame of a row -/

/-- The frame of a row whose effect `x` is known part by part. -/
theorem frame_of_row {s y x : State} {t : Instant} {inh : Bool} {pd : Word} {kdNext : Instant} {mem : Memory} {ring : Ring}
    {track : Track} {clock : Clock} {expr : Expression} {sched : List Entry} {fire : Fire} {keys : Bank KeyRec 88}
    {heat : Heat} {pedals : PedalUnit} {cue : Cue} {shadow : Shadow} {report : Report} (hy : Seen s t y)
    (hx : x = { y with
      inh := inh, pd := pd, kdNext := kdNext, mem := mem, arb := { s.arb with owner := x.arb.owner }, ring := ring
      track := track, clock := clock, expr := expr, sched := sched, fire := fire, keys := keys, heat := heat
      pedals := pedals, cue := cue, shadow := shadow, report := report, updates := x.updates }) :
    drivePins x = { s.withBook (drivePins x) with
      inh := inh, pd := pd, kdNext := kdNext, mem := mem, ring := ring, track := track, clock := clock, expr := expr
      sched := sched, fire := fire, keys := keys, heat := heat, pedals := pedals, cue := cue, shadow := shadow
      report := report } := by
  generalize x.updates = updates, x.arb.owner = owner at hx
  subst hx
  rw [hy]
  rfl

/-! ## A line completed (R6, R50) -/

/-- A set that holds words 0 to 16 is complete. -/
theorem Slot.complete_of_mem {r : Slot} (h : ∀ w, w ≤ 16 → w ∈ r.written) : r.complete = true := by
  rw [Slot.complete, List.all_eq_true]
  intro w hw
  simpa using h w (by simp at hw; omega)

/-- Word 17 of a FILLING slot that holds all other words: the effect is the pass and the completion (R6). -/
theorem ringWrite_completes {i : Fin 128} {y : State} (hs : (y.ring.slots.get i).state = .filling)
    (h : ∀ w, w ≤ 16 → w ∈ (y.ring.slots.get i).written) (c : ProcCycle) :
    ringWrite i 17 c y = completeSlot i (passWrite c y) := by
  rw [ringWrite_passes (.inr hs), fillSlot, if_neg (by decide)]
  exact if_pos ⟨hs, Slot.complete_of_mem h⟩

/-- Away from a starved head the line waits READY. -/
theorem completeSlot_waits {i : Fin 128} {s : State} (h : i ≠ s.ring.head ∨ s.clock.state ≠ .starved) :
    completeSlot i s = updSlot i (fun _ => { state := .ready }) s := by
  unfold completeSlot
  exact if_neg fun ⟨hi, hs⟩ => h.elim (fun h => h hi) (fun h => h hs)

/-- At the head of a starved clock it feeds the clock. -/
theorem completeSlot_feeds {i : Fin 128} {s : State} (hi : i = s.ring.head) (h : s.clock.state = .starved) :
    completeSlot i s = feed (updSlot i (fun _ => { state := .ready }) s) := by
  unfold completeSlot
  exact if_pos ⟨hi, h⟩

theorem feed_clock {s : State} (h : s.clock.state = .starved) :
    (feed s).clock = { s.clock with
      state := .playing, cause := .noCause, starveTimer := none, starvedSince := none
      nextDue := some (s.now + s.interval), waitingDue := none, lineInProgress := true, lineDue := some s.now
      exprCount := s.clock.exprCount + s.clock.exprOwed, exprOwed := 0 } := by
  simp [feed, startFetch_clock, setNextDue_clock, State.interval, Clock.countOn, Clock.owedOn, h]

theorem feed_ring (s : State) :
    (feed s).ring = { s.ring with
      slots := s.ring.slots.set s.ring.head { s.ring.headSlot with state := .current }
      fetch := some { slot := s.ring.head, count := 0, levelFrozen := true }, buffer := [] } := by
  simp [feed, startFetch_ring]

theorem feed_onlyRaised (s : State) : OnlyRaised s.report (feed s).report := by
  apply report_ext <;> simp [feed]

/-- The report of the feeding carries the time spent STARVED (R42). -/
theorem feed_raised {s y : State} (hr : y.report = s.report) (hl : y.track.lastTag = s.track.lastTag) :
    s.raised (feed y) .fed y.headWord (toWord y.starvedMs) := by
  exact raised_congr (raise_raised (y := updClock (fun k => { k with starveTimer := none, starvedSince := none })
    (setPlay .playing .noCause y)) hr hl) (by simp [feed])

/-- A ring write at the open port starts from the state that has only been advanced. -/
theorem cycleRow_ringWrite_advance {s : State} {t : Instant} {c : ProcCycle} {i : Fin 128} {w : Nat}
    (hw : c.isWrite = true) (hp : s.portOpen c.order) (hb : s.noBusCue) (hc : s.classify c.addr = .ring i w) :
    cycleRow t c s = .next (drivePins (ringWrite i w c (advance t s))) := by
  have hclass : (advance t s).classify c.addr = .ring i w := (seen_classify (seen_advance s t) _).trans hc
  have heffect : writeEffect c (advance t s) = ringWrite i w c (advance t s) := by simp [writeEffect, hclass]
  have hb' : (advance t s).noBusCue := seen_noBusCue (seen_advance s t) hb
  have hbw : (writeEffect c (advance t s)).noBusCue := (noBusCue_congr (by simp [heffect])).mpr hb'
  rw [cycleRow_open hp, completeCycle_plain c hw (holdsCommand_ring hclass) hb' hbw, heffect]

/-! ## A withheld ring write (R9) -/

/-- The first write of a READY period is noted and reported, a later one changes nothing (R9). -/
theorem ringWrite_withheld {i : Fin 128} {s : State}
    (h : (s.ring.slots.get i).state = .ready ∨ (s.ring.slots.get i).state = .current) (w : Nat) (c : ProcCycle) :
    ringWrite i w c s = overrun i w s := by
  rcases h with h | h <;> simp [ringWrite, h]

theorem overrun_noted {i : Fin 128} {s : State} (h : (s.ring.slots.get i).overrunNoted = true) (w : Nat) :
    overrun i w s = s := if_pos h

theorem overrun_first {i : Fin 128} {s : State} (h : (s.ring.slots.get i).overrunNoted = false) (w : Nat) :
    overrun i w s =
      raise .overrun (slotWord i) (toWord w) (updSlot i (fun r => { r with overrunNoted := true }) s) :=
  if_neg (by simp [h])

/-! ## The line due (R44, R45, R49) -/

theorem seen_owed {s y : State} {t : Instant} (hy : Seen s t y) : y.clock.exprOwed = s.clock.exprOwed := by
  rw [hy]
  rfl

theorem seen_interval {s y : State} {t : Instant} (hy : Seen s t y) : y.interval = s.shadow.lineInterval * 100 / s.shadow.tempo := by
  rw [hy]
  rfl

theorem seen_starveExpiry {s y : State} {t : Instant} (hy : Seen s t y) :
    y.starveExpiry = if s.shadow.starveLimit = 0 then none else some (s.at t + 1000 * s.shadow.starveLimit) := by
  rw [hy]
  rfl

/-- Between lines the due is taken. -/
theorem onLineDue_takes {s : State} {d : Instant} (hd : s.clock.nextDue = some d) (hp : s.clock.state = .playing)
    (hle : d ≤ s.now) (hl : s.clock.lineInProgress = false) : onLineDue s = takeDue d s := by
  simp [onLineDue, hd, hp, hle, hl]

/-- While a line is in progress the due waits (R45). -/
theorem onLineDue_waits {s : State} {d : Instant} (hd : s.clock.nextDue = some d) (hp : s.clock.state = .playing)
    (hle : d ≤ s.now) (hl : s.clock.lineInProgress = true) :
    onLineDue s = updClock (fun k => { k with waitingDue := some d, nextDue := none }) s := by
  simp [onLineDue, hd, hp, hle, hl]

end Sys2Proof.Machine

open Sys2Proof Sys2Proof.Machine

/-- Settles O26: the write completes its slot (`ringWrite_completes`), which waits or feeds the clock. -/
theorem ringWriteCompletesALine : Obligations.ring_write_completes_a_line := by
  intro t o wa lanes data s i hp hb hclass hfilling hall
  have hrow := cycleRow_ringWrite_advance (t := t) (c := ⟨true, wa, lanes, data, o⟩) rfl hp hb hclass
  have hy := seen_advance s t
  rw [ringWrite_completes (y := advance t s) hfilling hall] at hrow
  refine ⟨fun h => ?waits, fun hhead hstarved => ?feeds⟩
  case waits =>
    rw [completeSlot_waits (by simpa using h)] at hrow
    refine ⟨_, hrow, by simp [State.raisedNone], ?_, ?_⟩
    · rintro rfl
      simp [Ring.headReady, Ring.headSlot, Bank.modify_eq]
    · exact frame_of_ring_pass ⟨true, wa, lanes, data, o⟩ hy (by simp [updSlot, Bank.modify_eq]) (by simp)
  case feeds =>
    rw [completeSlot_feeds (s := passWrite _ (advance t s)) hhead hstarved] at hrow
    generalize hz : updSlot i (fun _ => { state := .ready }) (passWrite ⟨true, wa, lanes, data, o⟩ (advance t s)) = z at hrow
    have hclock : z.clock = s.clock := by
      have hstill : s.clock.state ≠ .playing := by simp [hstarved]
      simp [← hz, hstill]
    have hinterval : z.interval = s.interval := by rw [← hz]; rfl
    have hnow : z.now = s.at t := by simp [← hz, State.at]
    have hring : z.ring = { s.ring with slots := s.ring.slots.set i { state := .ready } } := by
      simp [← hz, Bank.modify_eq]
    refine ⟨_, hrow, ?_, ?_⟩
    · have h := feed_raised (s := s) (y := z) (by simp [← hz]) (by simp [← hz])
      have hms : z.starvedMs = (match s.clock.starvedSince with
          | none => 0
          | some since => min 65535 ((s.at t - since) / 1000)) := by
        rw [State.starvedMs, hclock, hnow] <;> rfl
      have hsubject : z.headWord = toWord s.ring.head.val := by simp [State.headWord, hring]
      rwa [hms, hsubject] at h
    · refine frame_of_row hy ?_
      apply state_ext
      case clock => rw [feed_clock (by rw [hclock, hstarved]), hclock, hinterval, hnow]
      case ring => simp [feed_ring, hring, hhead, Ring.headSlot]
      case report => simpa [OnlyRaised, ← hz] using feed_onlyRaised z
      all_goals simp [← hz, ProcCycle.addr]

/-- Settles O27: the write is withheld whoever owns the port (`cycleRow_withheld`). -/
theorem ringWriteToAHeldSlotIsWithheld : Obligations.ring_write_to_a_held_slot_is_withheld := by
  intro t o wa lanes data s i w hr hw hh hb hclass hslot
  obtain ⟨y, hy, hrow⟩ := cycleRow_withheld (t := t) (p := ⟨true, wa, lanes, data, o⟩) hr hw hh
  have hring : y.ring = s.ring := by simp [seen_parts hy]
  have hyclass : y.classify (ProcCycle.addr ⟨true, wa, lanes, data, o⟩) = .ring i w := (seen_classify hy _).trans hclass
  have heffect : writeEffect ⟨true, wa, lanes, data, o⟩ y = overrun i w y := by
    simp [writeEffect, hyclass, ringWrite_withheld (hring ▸ hslot)]
  have hwithholds : y.withholds ⟨true, wa, lanes, data, o⟩ = true := by
    simpa [State.withholds, hyclass, hring] using hslot
  have hby := seen_noBusCue hy hb
  have hrow := hrow rfl hwithholds
  rw [completeCycle_plain _ rfl (holdsCommand_ring hyclass) hby, heffect] at hrow
  · refine ⟨_, hrow, ?_, ?_, ?_⟩
    · intro hnoted
      rw [overrun_first (by rwa [hring])]
      exact raise_raised (by simp [seen_parts hy]) (by simp [seen_parts hy])
    · intro hnoted
      rw [overrun_noted (by rwa [hring])]
      simp [State.raisedNone, seen_parts hy]
    · cases hnoted : (s.ring.slots.get i).overrunNoted
      · rw [overrun_first (by rwa [hring])]
        apply state_ext
        case ring => simp [hring, Bank.modify_eq]
        case clock => simpa using seen_clock_eq hy
        case arb => simpa using seen_arb_eq hy
        case shadow => simpa using seen_shadow_eq hy
        case report => apply report_ext <;> simp [seen_parts hy]
        all_goals simp [seen_parts hy]
      · rw [overrun_noted (by rwa [hring])]
        have hsame : s.ring.slots.set i { s.ring.slots.get i with overrunNoted := true } = s.ring.slots := by
          rw [← hnoted]
          exact Bank.set_get _ _
        rw [hsame]
        exact frame_of_seen (s := s) hy
  · rw [heffect]
    exact (noBusCue_congr (by simp)).mpr hby

/-- Settles O28: by `onLineDue_takes` and `onLineDue_waits`. -/
theorem lineDueFetchesStarvesOrWaits : Obligations.line_due_fetches_starves_or_waits := by
  intro t d s hr hplaying hd hle
  obtain ⟨y, hy, hrow, -⟩ := partRow_seen (t := t) hr
  have hrow := hrow onLineDue
  have hyd : y.clock.nextDue = some d := by simp [seen_clock hy, hd]
  have hyp : y.clock.state = .playing := by simp [seen_clock hy, hplaying]
  have hyle : d ≤ y.now := by simpa [seen_parts hy] using hle
  have hyl : y.clock.lineInProgress = s.clock.lineInProgress := by simp [seen_clock hy]
  have hring : y.ring = s.ring := by simp [seen_parts hy]
  refine ⟨fun hl hready => ?fetches, fun hl hready => ?starves, fun hl => ?waits⟩
  case fetches =>
    rw [onLineDue_takes hyd hyp hyle (hyl.trans hl), takeDue_ready (by rwa [hring])] at hrow
    refine ⟨_, hrow, frame_of_row hy ?_⟩
    apply state_ext
    case clock =>
      apply clock_ext <;> simp [startFetch_clock, setNextDue_clock, seen_interval hy, seen_clock hy, seen_owed hy]
    case ring => simp [startFetch_ring, hring]
    case arb => simpa using seen_arb_eq hy
    case shadow => simpa using seen_shadow_eq hy
    all_goals simp [seen_parts hy]
  case starves =>
    rw [onLineDue_takes hyd hyp hyle (hyl.trans hl), takeDue_starves (by rwa [hring])] at hrow
    have hexpiry : (setNextDue d y).starveExpiry = y.starveExpiry := rfl
    have hsubject : (setNextDue d y).headWord = toWord s.ring.head.val := by rw [State.headWord, ← hring]; rfl
    have hdetail : (setNextDue d y).clock.expected = s.clock.expected := by simp [setNextDue_clock, seen_clock hy]
    refine ⟨_, hrow, ?_, ?_⟩
    · rw [← hsubject, ← hdetail]
      exact raised_congr (raise_raised (by simp [seen_parts hy]) (by simp [seen_parts hy])) rfl
    · refine frame_of_row hy ?_
      apply state_ext
      case clock =>
        apply clock_ext <;>
          simp [starve_clock, hexpiry, seen_starveExpiry hy, setNextDue_clock, seen_parts hy, seen_clock hy]
      case report => simpa [OnlyRaised, seen_parts hy] using starve_onlyRaised (setNextDue d y)
      case arb => simpa using seen_arb_eq hy
      case shadow => simpa using seen_shadow_eq hy
      all_goals simp [seen_parts hy]
  case waits =>
    rw [onLineDue_waits hyd hyp hyle (hyl.trans hl)] at hrow
    refine ⟨_, hrow, frame_of_row hy ?_⟩
    apply state_ext
    case clock =>
      apply clock_ext <;> simp [seen_clock hy, seen_owed hy]
    case arb => simpa using seen_arb_eq hy
    case shadow => simpa using seen_shadow_eq hy
    all_goals simp [seen_parts hy]
end

section
/-! PROOF. The line boundary (R47, R53, R56, R57, R39): the line ends, then ENDING, HELD, the waiting due, or nothing. -/

namespace Sys2Proof.Machine

/-- The line that ends: its slot freed, the expected tag advanced (R47, R18). -/
def lineEnded (s : State) : State := setExpected (s.clock.expected + 1) (endLine s)

theorem lineEnded_ring (s : State) :
    (lineEnded s).ring = { s.ring with
      slots := s.ring.slots.set s.ring.head {}, head := s.ring.after s.ring.head, fetch := none, buffer := [] } := rfl

theorem lineEnded_clock (s : State) :
    (lineEnded s).clock = { s.clock with
      lineInProgress := false, lineDue := none, expected := s.clock.expected + 1 } := rfl

theorem lineEnded_track (s : State) : (lineEnded s).track = { s.track with decode := none, pendingHold := none } := rfl

theorem lineEnded_cue (s : State) : (lineEnded s).cue = { s.cue with exempt := false } := rfl

@[simp] theorem lineEnded_keeps (s : State) :
    (lineEnded s).now = s.now ∧ (lineEnded s).pending = s.pending ∧ (lineEnded s).rst = s.rst ∧
      (lineEnded s).inh = s.inh ∧ (lineEnded s).ntc = s.ntc ∧ (lineEnded s).pwait = s.pwait ∧
      (lineEnded s).spb = s.spb ∧ (lineEnded s).pd = s.pd ∧ (lineEnded s).kdNext = s.kdNext ∧
      (lineEnded s).mem = s.mem ∧ (lineEnded s).arb = s.arb ∧ (lineEnded s).expr = s.expr ∧
      (lineEnded s).sched = s.sched ∧ (lineEnded s).fire = s.fire ∧ (lineEnded s).keys = s.keys ∧
      (lineEnded s).heat = s.heat ∧ (lineEnded s).pedals = s.pedals ∧ (lineEnded s).shadow = s.shadow ∧
      (lineEnded s).report = s.report :=
  by simp [lineEnded]

theorem lineEnded_interval (s : State) : (lineEnded s).interval = s.interval := by
  simp [State.interval]

/-- With stage 8 finished the boundary is taken. -/
theorem onLineBoundary_taken {s : State} {d : Decode} (hd : s.track.decode = some d) (h9 : d.stage = 9) :
    onLineBoundary s = lineBoundary d s := by simp [onLineBoundary, hd, h9]

/-- Under STOP or SILENCE nothing follows the line (R39). -/
theorem lineBoundary_muted {s : State} {d : Decode} (h : d.muted = true) : lineBoundary d s = lineEnded s := by
  simp [lineBoundary, h, lineEnded]

theorem lineBoundary_end {s : State} {d : Decode} (hm : d.muted = false) (he : d.endMark = true) :
    lineBoundary d s = enterEnding (lineEnded s) := by
  simp [lineBoundary, hm, he, lineEnded]

theorem lineBoundary_step {s : State} {d : Decode} (hm : d.muted = false) (he : d.endMark = false)
    (hs : s.clock.stepInProgress = true) : lineBoundary d s = endStep s.track.pendingHold (lineEnded s) := by
  simp [lineBoundary, hm, he, hs, lineEnded]

/-- Outside a step and without a Track Reader hold (R47). -/
theorem lineBoundary_plain {s : State} {d : Decode} (hm : d.muted = false) (he : d.endMark = false)
    (hs : s.clock.stepInProgress = false) (hh : s.track.pendingHold = none) :
    lineBoundary d s = boundaryNext (lineEnded s) := by
  simp [lineBoundary, hm, he, hs, hh, placeTrackHold, lineEnded]

/-! ## What follows the line -/

theorem boundaryNext_held {s : State} {c : Cause} (h : s.clock.pendingHold = some c) :
    boundaryNext s = enterHeld c s := by simp [boundaryNext, h]

theorem boundaryNext_due {s : State} {w : Instant} (h : s.clock.pendingHold = none)
    (hw : s.clock.waitingDue = some w) (hp : s.clock.state = .playing) : boundaryNext s = takeDue w s := by
  simp [boundaryNext, h, hw, hp]

theorem boundaryNext_none {s : State} (h : s.clock.pendingHold = none) (hw : s.clock.waitingDue = none) :
    boundaryNext s = s := by simp [boundaryNext, h, hw]

theorem enterEnding_clock (s : State) :
    (enterEnding s).clock = { s.clock with
      state := .ending, cause := .ending, nextDue := none, waitingDue := none, pendingHold := none
      stepInProgress := false, drained := false, exprCount := s.clock.countOn .ending
      exprOwed := s.clock.owedOn .ending } := by simp [enterEnding]

theorem enterEnding_onlyRaised (s : State) : OnlyRaised s.report (enterEnding s).report := by
  apply report_ext <;> simp [enterEnding]

theorem enterHeld_onlyRaised (c : Cause) (s : State) : OnlyRaised s.report (enterHeld c s).report := by
  apply report_ext <;> simp [enterHeld]

/-- The state in which `enterEnding` raises its report. -/
def setEnding (s : State) : State :=
  updClock
    (fun k => { k with nextDue := none, waitingDue := none, pendingHold := none, stepInProgress := false, drained := false })
    (setPlay .ending .ending s)

/-- The state in which `enterHeld` raises its report. -/
def setHeld (c : Cause) (s : State) : State :=
  updClock
    (fun k => { k with nextDue := none, waitingDue := none, starveTimer := none, starvedSince := none, pendingHold := none })
    (setPlay .held c s)

theorem enterEnding_raised {s y : State} (hr : y.report = s.report) (hl : y.track.lastTag = s.track.lastTag) :
    s.raised (enterEnding y) .ended 0 (toWord y.sched.length) :=
  raise_raised (y := setEnding y) (by simpa [setEnding] using hr) (by simpa [setEnding] using hl)

theorem enterHeld_raised {s y : State} (c : Cause) (hr : y.report = s.report)
    (hl : y.track.lastTag = s.track.lastTag) : s.raised (enterHeld c y) .held 0 (causeWord c) :=
  raise_raised (y := setHeld c y) (by simpa [setHeld] using hr) (by simpa [setHeld] using hl)

/-- Driving the pins raises nothing. -/
theorem raised_drivePins {s x : State} {k : ReportKind} {a d : Word} (h : s.raised x k a d) :
    s.raised (drivePins x) k a d := raised_congr h rfl

/-- The step that ends keeps HELD with its cause, or takes the Track Reader's (R56). -/
theorem endStep_none (s : State) : endStep none s = clearStep s := rfl

theorem endStep_some (h : TrackHold) (s : State) :
    endStep (some h) s = raise .held 0 (causeWord (trackCause h)) (setPlay .held (trackCause h) (clearStep s)) := rfl

theorem clearStep_clock (s : State) :
    (clearStep s).clock = { s.clock with stepInProgress := false, pendingHold := none } := rfl

theorem endStep_clock (h : Option TrackHold) {s : State} (hs : s.clock.state = .held) :
    (endStep h s).clock = { s.clock with
      stepInProgress := false, pendingHold := none, cause := (h.map trackCause).getD s.clock.cause } := by
  cases h with
  | none => rw [endStep_none, clearStep_clock]; rfl
  | some h =>
    rw [endStep_some]
    apply clock_ext <;> simp [clearStep_clock, hs, Clock.countOn, Clock.owedOn]

theorem endStep_onlyRaised (h : Option TrackHold) (s : State) : OnlyRaised s.report (endStep h s).report := by
  cases h with
  | none => exact .of_eq rfl
  | some h => apply report_ext <;> simp [endStep_some, clearStep]

theorem endStep_raised {s y : State} (h : TrackHold) (hr : y.report = s.report)
    (hl : y.track.lastTag = s.track.lastTag) : s.raised (endStep (some h) y) .held 0 (causeWord (trackCause h)) :=
  raise_raised (y := setPlay .held (trackCause h) (clearStep y)) (by simpa [clearStep] using hr) (by simpa [clearStep] using hl)

/-- The frame of a boundary: ring and clock as given, the decode over, the exempt mark gone. -/
theorem frame_of_boundary {s y x : State} {t : Instant} {ring : Ring} {clock : Clock}
    {track : Track} (hy : Seen s t y) (htrack : (lineEnded y).track = track)
    (hreport : OnlyRaised (lineEnded y).report x.report)
    (hx : x = { lineEnded y with
      ring := ring, clock := clock, arb := x.arb, report := x.report, updates := x.updates })
    (harb : x.arb.waiting = y.arb.waiting) :
    drivePins x = { s.withBook (drivePins x) with
      ring := ring, track := track, cue := { s.cue with exempt := false }, clock := clock } := by
  refine frame_of_row hy ?_
  apply state_ext
  case arb => apply arbiter_ext <;> simp [harb, seen_parts hy]
  case shadow => rw [hx]; simpa using seen_shadow_eq hy
  case report => simpa [OnlyRaised, seen_parts hy] using hreport
  case track => rw [hx]; exact htrack
  case cue => rw [hx]; simp [lineEnded_cue, seen_parts hy]
  case ring => rw [hx]
  case clock => rw [hx]
  case updates => rfl
  all_goals (rw [hx]; simp [seen_parts hy])

end Sys2Proof.Machine

open Sys2Proof Sys2Proof.Machine

/-- Settles O33: the line ends (`lineEnded`), then by the cases of `lineBoundary` and `boundaryNext`. -/
theorem lineBoundaryFreesTheSlotAndChooses : Obligations.line_boundary_frees_the_slot_and_chooses := by
  intro t d s hr hd h9 hstep hhold next freed base after
  obtain ⟨y, hy, hrow, -⟩ := partRow_seen (t := t) hr
  have hrow := hrow onLineBoundary
  have hring : y.ring = s.ring := by simp [seen_parts hy]
  have htrack : y.track = s.track := by simp [seen_parts hy]
  have hcue : y.cue = s.cue := by simp [seen_parts hy]
  have hystep : y.clock.stepInProgress = false := by simpa [seen_clock hy] using hstep
  rw [onLineBoundary_taken (by rwa [htrack]) h9] at hrow
  have hreport : (lineEnded y).report = s.report := by simp [seen_parts hy]
  have hended : (lineEnded y).track = { s.track with decode := none } := by
    simp [lineEnded_track, htrack, hhold]
  have hlast : (lineEnded y).track.lastTag = s.track.lastTag := by simp [lineEnded_track, htrack]
  refine ⟨fun h => ?goesOn, fun hm he => ?ends, fun c hm he hpend => ?held, fun w hm he hpend hwait hplay hne hready => ?due⟩
  case goesOn =>
    have hact : lineBoundary d y = lineEnded y := by
      rcases h with hm | ⟨he, hp, hwait⟩
      · exact lineBoundary_muted hm
      · cases hm : d.muted
        · rw [lineBoundary_plain hm he hystep (by rwa [htrack]), boundaryNext_none]
          · simpa [lineEnded_clock, seen_clock hy] using hp
          · simpa [lineEnded_clock, seen_clock hy] using hwait
        · exact lineBoundary_muted hm
    rw [hact] at hrow
    refine ⟨_, hrow, by simp [State.raisedNone, seen_parts hy], frame_of_boundary hy hended (.refl _) ?_ (by simp)⟩
    apply state_ext
    case clock => apply clock_ext <;> simp [base, lineEnded_clock, seen_clock hy, seen_owed hy]
    case ring => simp [freed, next, lineEnded_ring, hring]
    all_goals simp
  case ends =>
    rw [lineBoundary_end hm he] at hrow
    refine ⟨_, hrow, ?_, frame_of_boundary hy hended (enterEnding_onlyRaised _) ?_ (by simp)⟩
    · have hsched : (lineEnded y).sched = s.sched := by simp [seen_parts hy]
      rw [← hsched]
      exact raised_drivePins (x := enterEnding (lineEnded y)) (enterEnding_raised (y := lineEnded y) hreport hlast)
    · apply state_ext
      case clock => apply clock_ext <;> simp [base, enterEnding_clock, lineEnded_clock, seen_clock hy, seen_owed hy]
      case ring => simp [freed, next, lineEnded_ring, hring]
      all_goals simp
  case held =>
    rw [lineBoundary_plain hm he hystep (by rwa [htrack]), boundaryNext_held (c := c) (by simpa [lineEnded_clock, seen_clock hy] using hpend)] at hrow
    refine ⟨_, hrow, ?_, frame_of_boundary hy hended (enterHeld_onlyRaised _ _) ?_ (by simp)⟩
    · exact raised_drivePins (enterHeld_raised (y := lineEnded y) c hreport hlast)
    · apply state_ext
      case clock => apply clock_ext <;> simp [base, enterHeld_clock, lineEnded_clock, seen_clock hy, seen_owed hy]
      case ring => simp [freed, next, lineEnded_ring, hring]
      all_goals simp
  case due =>
    have hfree := Bank.get_set_other s.ring.slots s.ring.head next {} hne
    have hinterval : (lineEnded y).interval = s.interval := (lineEnded_interval y).trans (seen_interval hy)
    simp only [next] at hready hfree
    rw [lineBoundary_plain hm he hystep (by rwa [htrack]),
      boundaryNext_due (w := w) (by simpa [lineEnded_clock, seen_clock hy] using hpend)
        (by simpa [lineEnded_clock, seen_clock hy] using hwait) (by simpa [lineEnded_clock, seen_clock hy] using hplay),
      takeDue_ready ?ready] at hrow
    case ready => simp [Ring.headReady, Ring.headSlot, lineEnded_ring, hring, hfree, hready]
    refine ⟨_, hrow, by simp [State.raisedNone, seen_parts hy], frame_of_boundary hy hended (.of_eq (by simp)) ?_ (by simp)⟩
    apply state_ext
    case clock =>
      apply clock_ext <;> simp [base, startFetch_clock, setNextDue_clock, lineEnded_clock, hinterval, seen_clock hy, seen_owed hy]
    case ring =>
      simp [startFetch_ring, lineEnded_ring, hring, Ring.headSlot, freed, next, hfree]
    all_goals simp

/-- Settles O34: the line ends, and `endStep` sees the Track Reader's hold that was pending. -/
theorem stepEndsAtItsBoundary : Obligations.step_ends_at_its_boundary := by
  intro t d s hr hd h9 hstep hheld hm he
  obtain ⟨y, hy, hrow, -⟩ := partRow_seen (t := t) hr
  have hrow := hrow onLineBoundary
  have hring : y.ring = s.ring := by simp [seen_parts hy]
  have htrack : y.track = s.track := by simp [seen_parts hy]
  rw [onLineBoundary_taken (by rwa [htrack]) h9,
    lineBoundary_step hm he (by simpa [seen_clock hy] using hstep), htrack] at hrow
  have hclock := endStep_clock s.track.pendingHold (s := lineEnded y)
    (by simpa [lineEnded_clock, seen_clock hy] using hheld)
  have hreport : (lineEnded y).report = s.report := by simp [seen_parts hy]
  have hlast : (lineEnded y).track.lastTag = s.track.lastTag := by simp [lineEnded_track, htrack]
  have hcause : ∀ h, s.track.pendingHold = some h →
      (drivePins (endStep s.track.pendingHold (lineEnded y))).clock.cause = trackCause h ∧
        s.raised (drivePins (endStep s.track.pendingHold (lineEnded y))) .held 0 (causeWord (trackCause h)) := by
    intro h hh
    refine ⟨by rw [drivePins_clock, hclock, hh]; rfl, raised_drivePins ?_⟩
    rw [hh]
    exact endStep_raised h hreport hlast
  refine ⟨_, hrow, fun hh => ?none, hcause .tracking, hcause .paper, ?frame⟩
  case none => simp [State.raisedNone, hh, endStep_none, clearStep, lineEnded_clock, seen_parts hy, seen_clock hy]
  case frame =>
    refine frame_of_boundary hy (by simp [lineEnded_track, htrack]) (endStep_onlyRaised _ _) ?_ (by simp)
    apply state_ext
    case clock => apply clock_ext <;> simp [hclock, lineEnded_clock, seen_clock hy, seen_owed hy]
    case ring => simp [lineEnded_ring, hring]
    all_goals simp
end

section
/-! PROOF. The expression step (R71, R79, R82). -/

namespace Sys2Proof.Machine

/-- A step whose instant has come, with the level free, is taken (R71). -/
theorem onExpressionStep_taken {s : State} (hp : s.clock.state = .playing) (hc : 10000 ≤ s.clock.exprCount)
    (hl : s.levelFrozen = false) : onExpressionStep s =
      updClock (fun k => { k with exprCount := k.exprCount - Config.expressionPeriod }) (expressionMove s) := by
  simp [onExpressionStep, hp, hc, hl, Config.expressionPeriod]

theorem expressionMove_expr (s : State) : (expressionMove s).expr = { s.expr with
    bass := { s.expr.bass with
      level := levelAfter s.expr.bass s.shadow.slowRate s.shadow.fastRate s.shadow.settleRate }
    treble := { s.expr.treble with
      level := levelAfter s.expr.treble s.shadow.slowRate s.shadow.fastRate s.shadow.settleRate } } := rfl

/-- A level frozen neither by the decode in progress nor by the fetch (R79). -/
theorem levelFrozen_false {s : State} (hd : ∀ d, s.track.decode = some d → d.frozenThrough < d.stage)
    (hf : ∀ f, s.ring.fetch = some f → f.levelFrozen = false) : s.levelFrozen = false := by
  rw [State.levelFrozen, Bool.or_eq_false_iff, Option.any_eq_false, Option.any_eq_false]
  exact ⟨fun f h => by simp [hf f h], fun d h => by simpa using hd d h⟩

theorem levelFrozen_true {s : State}
    (h : (∃ d, s.track.decode = some d ∧ d.stage ≤ d.frozenThrough) ∨
      (∃ f, s.ring.fetch = some f ∧ f.levelFrozen = true)) : s.levelFrozen = true := by
  rcases h with ⟨d, hd, hle⟩ | ⟨f, hf, hfrozen⟩
  · simp [State.levelFrozen, hd, hle]
  · simp [State.levelFrozen, hf, hfrozen]

theorem levelFrozen_seen {s y : State} {t : Instant} (hy : Seen s t y) : y.levelFrozen = s.levelFrozen := by
  simp [State.levelFrozen, seen_parts hy]

end Sys2Proof.Machine

open Sys2Proof Sys2Proof.Machine

/-- Settles O35: the step is taken or frozen by `State.levelFrozen`; HOLD counts by `Clock.countOn` and `Clock.owedOn`. -/
theorem expressionStepMovesEachLevel : Obligations.expression_step_moves_each_level := by
  refine ⟨?step, ?frozen, ?hold⟩
  case step =>
    intro t s hr hp hcount hd hf moved
    have hrow := partRow_next (t := t) (e := onExpressionStep) hr
    have hy := seen_grant s t
    have hyc : (grantPort (advance t s)).clock.exprCount = s.clock.exprCount + (s.at t - s.now) := by
      simp [hp, State.at]
    generalize grantPort (advance t s) = y at hrow hy hyc
    have hshadow : y.shadow.slowRate = s.shadow.slowRate ∧ y.shadow.fastRate = s.shadow.fastRate ∧
        y.shadow.settleRate = s.shadow.settleRate := by rw [hy]; exact ⟨rfl, rfl, rfl⟩
    rw [onExpressionStep_taken (by simpa [seen_clock hy] using hp) (by rwa [hyc])
      ((levelFrozen_seen hy).trans (levelFrozen_false hd hf))] at hrow
    refine ⟨_, hrow, by simp [expressionMove, hyc, Config.expressionPeriod], frame_of_row hy ?_⟩
    apply state_ext
    case clock => apply clock_ext <;> simp [expressionMove, seen_clock hy, seen_owed hy]
    case expr =>
      have hexpr : y.expr = s.expr := by simp [seen_parts hy]
      have hmoved : ∀ side : Side,
          levelAfter side s.shadow.slowRate s.shadow.fastRate s.shadow.settleRate = moved side := by
        intro side
        cases hs : side.swell <;> cases hf : side.fade <;> simp [levelAfter, moved, hs, hf, Config.levelMax]
      simp [expressionMove_expr, hexpr, hshadow, hmoved]
    case arb => simpa [expressionMove] using seen_arb_eq hy
    case shadow => simpa [expressionMove] using seen_shadow_eq hy
    all_goals simp [expressionMove, seen_parts hy]
  case frozen =>
    intro t s hr h
    have hrow := partRow_next (t := t) (e := onExpressionStep) hr
    have hy := seen_grant s t
    have hyc : s.clock.state = .playing →
        (grantPort (advance t s)).clock.exprCount = s.clock.exprCount + (s.at t - s.now) := by
      intro hp
      simp [hp, State.at]
    generalize grantPort (advance t s) = y at hrow hy hyc
    rw [onExpressionStep_of_levelFrozen y ((levelFrozen_seen hy).trans (levelFrozen_true h))] at hrow
    exact ⟨_, hrow, frame_of_seen hy, by simpa using hyc⟩
  case hold =>
    intro t o hi s hopen hp hl
    have hact : actOn .hold (commandSeen t (s.commandWrite 4 hi o) s) =
        enterHeld .command (commandSeen t (s.commandWrite 4 hi o) s) :=
      requestHold_atOnce (s := commandSeen t _ s) (.inr ⟨hp, hl⟩) .command
    have hrow := cycleRow_accepted (t := t) (cmd := .hold) hi hopen (by simp [replyOf, replyByState, hp])
    rw [Command.number, hact] at hrow
    refine ⟨_, hrow, by simp [enterHeld_clock], ?_, ?_⟩
    · simp [enterHeld_clock, Clock.countOn, hp, Config.expressionPeriod, State.at, Nat.min_comm]
    · have htotal := countOn_add_owedOn (commandSeen t (s.commandWrite 4 hi o) s).clock .held
      simpa [enterHeld_clock, hp, State.at] using htotal
end

section
/-! PROOF. The drain of ENDING, the completions of ENDING and STOPPING, the end of LOADING (R58, R60, R174). -/

namespace Sys2Proof.Machine

theorem onEndingDrain_taken {s : State} (h : s.clock.state = .ending) (hd : s.clock.drained = false) (hs : s.sched = [])
    (hq : s.fire.queue = []) (hk : s.keysQuiet = true) :
    onEndingDrain s = updClock (fun k => { k with drained := true }) (pedalsToZero s) := by
  simp [onEndingDrain, h, hd, hs, hq, hk]

theorem onEndingSettled_taken {s : State} (h : s.clock.state = .ending) (hd : s.clock.drained = true)
    (hp : s.pedals.allSettled = true) (hk : s.keysQuiet = true) : onEndingSettled s = enterReady .ending s := by
  simp [onEndingSettled, h, hd, hp, hk]

theorem onStoppingComplete_taken {s : State} (h : s.clock.state = .stopping) (hd : s.track.decode = none)
    (hp : s.pedals.allSettled = true) (hk : s.keysQuiet = true) :
    onStoppingComplete s = enterReady s.clock.cause s := by
  simp [onStoppingComplete, h, hd, hp, hk]

theorem onLoaded_taken {s : State} (h : s.clock.state = .loading) (hl : s.shadow.loaded = true)
    (hp : s.pedals.allSettled = true) : onLoaded s =
      raise .loaded 0 (toWord (allPedals.filter (fun p => decide ((s.pedals.pedal p).motion = .fault))).length)
        (setPlay .ready .noCause s) := by
  simp [onLoaded, h, hl, hp]

theorem keysQuiet_seen {s y : State} {t : Instant} (hy : Seen s t y) : y.keysQuiet = s.keysQuiet := by
  simp [State.keysQuiet, seen_parts hy]

/-- A state that is no PLAYING keeps its count and what it owes when READY is entered. -/
theorem setPlay_ready_clock {s : State} (h : s.clock.state ≠ .playing) (c : Cause) :
    (setPlay .ready c s).clock = { s.clock with state := .ready, cause := c } := by
  apply clock_ext <;> simp [Clock.countOn, Clock.owedOn, h]

theorem enterReady_parts {s : State} (h : s.clock.state ≠ .playing) (c : Cause) :
    (enterReady c s).clock = { s.clock with state := .ready, cause := c } ∧
      (enterReady c s).ring = { base := s.ring.base, nslots := s.ring.nslots } ∧
      OnlyRaised s.report (enterReady c s).report := by
  refine ⟨?_, by simp [enterReady, ringReset], ?_⟩
  · rw [← setPlay_ready_clock h c]
    simp [enterReady, ringReset]
  · apply report_ext <;> simp [enterReady, ringReset]

theorem enterReady_raised {s y : State} (c : Cause) (hr : y.report = s.report)
    (hl : y.track.lastTag = s.track.lastTag) : s.raised (enterReady c y) .stopped 0 (causeWord c) :=
  raised_congr (x := raise .stopped 0 (causeWord c) (setPlay .ready c y))
    (raise_raised (by simpa using hr) (by simpa using hl)) rfl

/-- READY entered from the state a row sees: the STOPPED report and the frame. -/
theorem enterReady_row {s y : State} {t : Instant} (hy : Seen s t y) (h : s.clock.state ≠ .playing) (c : Cause) :
    s.raised (drivePins (enterReady c y)) .stopped 0 (causeWord c) ∧
      drivePins (enterReady c y) = { s.withBook (drivePins (enterReady c y)) with
        clock := { s.clock with state := .ready, cause := c, exprCount := (drivePins (enterReady c y)).clock.exprCount }
        ring := { slots := Bank.replicate 128 {}, head := 0, fetch := none, buffer := []
                  base := s.ring.base, nslots := s.ring.nslots } } := by
  obtain ⟨hclock, hring, hreport⟩ := enterReady_parts (s := y) (by simpa [seen_clock hy] using h) c
  refine ⟨raised_drivePins (enterReady_raised c (by simp [seen_parts hy]) (by simp [seen_parts hy])), frame_of_row hy ?_⟩
  apply state_ext
  case clock => apply clock_ext <;> simp [hclock, seen_clock hy, seen_owed hy]
  case ring => simp [hring, seen_parts hy]
  case arb => simpa using seen_arb_eq hy
  case shadow => simpa using seen_shadow_eq hy
  case report => simpa [OnlyRaised, seen_parts hy] using hreport
  all_goals simp [seen_parts hy]

end Sys2Proof.Machine

open Sys2Proof Sys2Proof.Machine

/-- Settles O37: each row's conditions hold, and its effect is `pedalsToZero`, `enterReady` or the LOADED report. -/
theorem endingStoppingAndLoadingComplete : Obligations.ending_stopping_and_loading_complete := by
  intro t s hr readied
  obtain ⟨y, hy, hrow, -⟩ := partRow_seen (t := t) hr
  have hpedals : y.pedals = s.pedals := by simp [seen_parts hy]
  have hquiet := keysQuiet_seen hy
  refine ⟨fun h hd hs hq hk => ?drain, fun h hd hp hk => ?ending, fun h hp hd hk => ?stopping, fun h hl hp => ?loading⟩
  case drain =>
    have hrow := hrow onEndingDrain
    rw [onEndingDrain_taken (by simpa [seen_clock hy] using h) (by simpa [seen_clock hy] using hd)
      (by simpa [seen_parts hy] using hs) (by simpa [seen_parts hy] using hq) (hquiet.trans hk)] at hrow
    have hsent := pedalsToZero_sent y
    have hpedal := pedalsToZero_pedal y
    have hrecs := pedalsToZero_pedals y
    rw [hpedals] at hrecs
    simp only [hpedals] at hpedal
    refine ⟨_, hrow, fun p => ⟨by simpa using hpedal p, ?_⟩, frame_of_row hy ?_⟩
    · have h := hsent p
      rw [sentToZero, hpedal p] at h
      simpa [seen_parts hy] using h
    · apply state_ext
      case clock => apply clock_ext <;> simp [seen_clock hy, seen_owed hy]
      case pedals => simpa using hrecs
      case arb => simpa using seen_arb_eq hy
      case shadow => simpa using seen_shadow_eq hy
      all_goals simp [seen_parts hy]
  case ending =>
    have hrow := hrow onEndingSettled
    rw [onEndingSettled_taken (by simpa [seen_clock hy] using h) (by simpa [seen_clock hy] using hd)
      (by rwa [hpedals]) (hquiet.trans hk)] at hrow
    exact ⟨_, hrow, enterReady_row hy (by simp [h]) _⟩
  case stopping =>
    have hrow := hrow onStoppingComplete
    have hcause : y.clock.cause = s.clock.cause := by simp [seen_clock hy]
    rw [onStoppingComplete_taken (by simpa [seen_clock hy] using h) (by simpa [seen_parts hy] using hd)
      (by rwa [hpedals]) (hquiet.trans hk), hcause] at hrow
    exact ⟨_, hrow, enterReady_row hy (by simp [h]) _⟩
  case loading =>
    have hrow := hrow onLoaded
    rw [onLoaded_taken (by simpa [seen_clock hy] using h) (by simpa [seen_shadow hy] using hl) (by rwa [hpedals]),
      hpedals] at hrow
    refine ⟨_, hrow, raised_drivePins (raise_raised (by simp [seen_parts hy]) (by simp [seen_parts hy])), frame_of_row hy ?_⟩
    apply state_ext
    case clock => apply clock_ext <;> simp [Clock.owedOn, seen_clock hy, seen_owed hy, h]
    case report => apply report_ext <;> simp [seen_parts hy]
    case arb => simpa using seen_arb_eq hy
    case shadow => simpa using seen_shadow_eq hy
    all_goals simp [seen_parts hy]
end

section
/-! PROOF. The key rows (R96, R98, R104 to R107, R111): one key moved on, and the grants that follow. -/

namespace Sys2Proof.Machine

theorem raise_raisedExactly {s y : State} {k : ReportKind} {a d : Word} (hr : y.report = s.report)
    (hl : y.track.lastTag = s.track.lastTag) : s.raisedExactly (raise k a d y) [(k, a, d)] := by
  simp [State.raisedExactly, raise_report, hr, hl]

/-! ## One key moved on -/

/-- From `s` to `z` key k became `r` and the Firing Arbiter `fire`; nothing else changed but the update list. -/
def KeyMoved (s z : State) (k : Key) (r : KeyRec) (fire : Fire) : Prop :=
  z.key k = r ∧ (∀ k', k' ≠ k → z.key k' = s.key k') ∧ z = { s with keys := z.keys, fire := fire, updates := z.updates }

theorem KeyMoved.trans {s y z : State} {k : Key} {r r' : KeyRec} {fire fire' : Fire} (h : KeyMoved s y k r fire)
    (h' : KeyMoved y z k r' fire') : KeyMoved s z k r' fire' := by
  obtain ⟨-, hother, hframe⟩ := h
  obtain ⟨hkey', hother', hframe'⟩ := h'
  refine ⟨hkey', fun k' hk => (hother' k' hk).trans (hother k' hk), ?_⟩
  rw [hframe', hframe]

/-- What a moved key leaves of the rest. -/
theorem KeyMoved.parts {s z : State} {k : Key} {r : KeyRec} {fire : Fire} (h : KeyMoved s z k r fire) :
    z.now = s.now ∧ z.clock = s.clock ∧ z.shadow = s.shadow ∧ z.heat = s.heat ∧ z.report = s.report ∧
      z.track = s.track ∧ z.expr = s.expr ∧ z.pedals = s.pedals ∧ z.sched = s.sched ∧ z.fire = fire := by
  obtain ⟨-, -, hframe⟩ := h
  rw [hframe]
  exact ⟨rfl, rfl, rfl, rfl, rfl, rfl, rfl, rfl, rfl, rfl⟩

theorem updKey_moved (k : Key) (f : KeyRec → KeyRec) (s : State) : KeyMoved s (updKey k f s) k (f (s.key k)) s.fire :=
  ⟨by simp [updKey_key], fun k' hk => by simp [updKey_key, hk], rfl⟩

theorem leaveFiring_moved (was : KeyState) (k : Key) (s : State) :
    KeyMoved s (leaveFiring was s) k (s.key k)
      { s.fire with count := if was = .firing then s.fire.count - 1 else s.fire.count } :=
  ⟨by simp, fun k' _ => by simp, rfl⟩

theorem toReleasing_moved (k : Key) (s : State) :
    KeyMoved s (toReleasing k s) k ((s.key k).releasing (s.now + Config.unit * s.shadow.recovery))
      { s.fire with count := if (s.key k).state = .firing then s.fire.count - 1 else s.fire.count } := by
  have hmoved := (updKey_moved k (fun r => r.releasing (s.now + Config.unit * s.shadow.recovery)) s).trans
    (leaveFiring_moved (s.key k).state k _)
  rwa [updKey_key, if_pos rfl] at hmoved

theorem toReleasing_moved_sounding {k : Key} {s : State} (h : (s.key k).state ≠ .firing) :
    KeyMoved s (toReleasing k s) k ((s.key k).releasing (s.now + Config.unit * s.shadow.recovery)) s.fire := by
  simpa [h] using toReleasing_moved k s

theorem enterHolding_moved {k : Key} {s : State} (h : (s.key k).state = .firing) :
    KeyMoved s (enterHolding k s) k ((s.key k).entersHolding s.now s.shadow.minHold s.shadow.holdDuty)
      { s.fire with count := s.fire.count - 1 } := by
  have hmoved := (updKey_moved k (fun r => r.entersHolding s.now s.shadow.minHold s.shadow.holdDuty) s).trans
    (leaveFiring_moved (s.key k).state k _)
  rw [updKey_key, if_pos rfl] at hmoved
  simpa [enterHolding, h] using hmoved

theorem minHoldOut_moved {k : Key} {s : State} (h : (s.key k).state = .holding) :
    KeyMoved s (minHoldOut k s) k
      (if (s.key k).releaseOwed then (s.key k).releasing (s.now + Config.unit * s.shadow.recovery)
      else { s.key k with timer := none }) s.fire := by
  unfold minHoldOut
  split
  · exact toReleasing_moved_sounding (by simp [h])
  · exact updKey_moved k _ s

/-- Below the warm and hot limits the test changes nothing (R129). -/
theorem heatTest_cool {k : Key} {s : State} (hw : (s.key k).heat < s.heat.warm) (hh : (s.key k).heat < s.heat.hot) :
    heatTest k s = s := by
  have hhot : s.isHot k = false := by simpa [State.isHot] using hh
  have hwarm : s.isWarm k = false := by simpa [State.isWarm] using hw
  simp [heatTest, hhot, hwarm]

/-! ## Grants (R96, R97) -/

theorem grantLoop_none_free {s : State} (h : ∀ x ∈ s.fire.queue, (s.key x.key).free = false) (n : Nat) :
    grantLoop n s = s := by
  have hnone : s.eligible = none := by simpa [State.eligible] using h
  cases n <;> simp [grantLoop, hnone]

theorem grantLoop_full {s : State} (h : s.shadow.fireBudget ≤ s.fire.count) (n : Nat) : grantLoop n s = s := by
  cases n <;> simp [grantLoop, Nat.not_lt.mpr h]

/-- With no strike whose key is free, or no place open, nothing is granted. -/
theorem grantStrikes_idle {s : State}
    (h : (∀ x ∈ s.fire.queue, (s.key x.key).free = false) ∨ s.shadow.fireBudget ≤ s.fire.count) : grantStrikes s = s :=
  h.elim (fun h => grantLoop_none_free h _) (fun h => grantLoop_full h _)

theorem withoutKey_middle {w : Waiting} {before after : List Waiting} (h : ∀ x ∈ before ++ after, x.key ≠ w.key) :
    withoutKey w.key (before ++ w :: after) = before ++ after := by
  have hkept : withoutKey w.key (before ++ after) = before ++ after :=
    List.filter_eq_self.mpr (fun x hx => by simpa using h x hx)
  rw [← hkept]
  simp [withoutKey]

/-- A strike whose key is free, behind strikes whose keys are not, with a place open, is the first grant. -/
theorem grantStrikes_first {s : State} {before after : List Waiting} {w : Waiting}
    (hq : s.fire.queue = before ++ w :: after) (hbusy : ∀ x ∈ before, (s.key x.key).free = false)
    (hfree : (s.key w.key).free = true) (hplace : s.fire.count < s.shadow.fireBudget) :
    grantStrikes s = grantLoop (before.length + after.length) (grantOne w s) := by
  have heligible : s.eligible = some w := by
    rw [State.eligible, hq, List.find?_append, List.find?_eq_none.mpr (by simpa using hbusy)]
    simp [hfree]
  rw [grantStrikes, hq, List.length_append, List.length_cons, ← Nat.add_assoc, grantLoop, if_pos hplace, heligible]

theorem grantOne_cool {s : State} {w : Waiting} (h : (s.key w.key).heat < s.heat.hot) :
    grantOne w s = updKey w.key (fun r => r.granted w.serial (s.now + Config.unit * (s.curveRow w.level).width))
      (setCount (s.fire.count + 1) (setQueue (withoutKey w.key s.fire.queue) s)) := by
  simp [grantOne, State.isHot, Nat.not_le.mpr h]

theorem grantOne_hot {s : State} {w : Waiting} (h : s.heat.hot ≤ (s.key w.key).heat) :
    grantOne w s =
      strikeGone w.key (raise .dropHot (keyWord w.key) w.tag (setQueue (withoutKey w.key s.fire.queue) s)) := by
  simp [grantOne, State.isHot, h]

theorem grantOne_moved {s : State} {w : Waiting} (h : (s.key w.key).heat < s.heat.hot) :
    KeyMoved s (grantOne w s) w.key (s.grantedAt s.now w)
      { queue := withoutKey w.key s.fire.queue, count := s.fire.count + 1 } := by
  rw [grantOne_cool h]
  exact ⟨by simp [updKey_key, KeyRec.granted, State.grantedAt, Config.unit], fun k' hk => by simp [updKey_key, hk], rfl⟩

/-- One grant, after which no place is open or no key free, is all that is granted. -/
theorem grantStrikes_moved {s : State} {before after : List Waiting} {w : Waiting}
    (hq : s.fire.queue = before ++ w :: after) (hbusy : ∀ x ∈ before, (s.key x.key).free = false)
    (hne : ∀ x ∈ before ++ after, x.key ≠ w.key) (hfree : (s.key w.key).free = true)
    (hcool : (s.key w.key).heat < s.heat.hot) (hplace : s.fire.count < s.shadow.fireBudget)
    (hend : (∀ x ∈ before ++ after, (s.key x.key).free = false) ∨ s.shadow.fireBudget ≤ s.fire.count + 1) :
    KeyMoved s (grantStrikes s) w.key (s.grantedAt s.now w) { queue := before ++ after, count := s.fire.count + 1 } := by
  have hmoved := grantOne_moved hcool
  rw [hq, withoutKey_middle hne] at hmoved
  have hparts := hmoved.parts
  obtain ⟨-, hother, -⟩ := id hmoved
  have hdone : grantLoop (before.length + after.length) (grantOne w s) = grantOne w s := by
    rcases hend with hend | hend
    · refine grantLoop_none_free (fun x hx => ?_) _
      have hx : x ∈ before ++ after := by simpa [hparts] using hx
      rw [hother _ (hne x hx)]
      exact hend x hx
    · exact grantLoop_full (by simpa [hparts] using hend) _
  rwa [grantStrikes_first hq hbusy hfree hplace, hdone]

/-! ## The row of a moved key -/

/-- A row whose effect moved keys and the Firing Arbiter on. -/
theorem frame_of_keys {s y z : State} {t : Instant} {fire : Fire} (hy : Seen s t y)
    (h : z = { y with keys := z.keys, fire := fire, updates := z.updates }) :
    s.raisedNone (drivePins z) ∧
      drivePins z = { s.withBook (drivePins z) with keys := (drivePins z).keys, fire := fire } := by
  generalize z.keys = keys, z.updates = updates at h
  subst h
  refine ⟨by simp [State.raisedNone, seen_parts hy], frame_of_row hy ?_⟩
  apply state_ext
  case clock => apply clock_ext <;> simp [seen_clock hy, seen_owed hy]
  case arb => simpa using seen_arb_eq hy
  case shadow => simpa using seen_shadow_eq hy
  all_goals simp [seen_parts hy]

/-- A row whose effect moved one key on. -/
theorem KeyMoved.row {s y z : State} {t : Instant} {k : Key} {r : KeyRec} {fire : Fire} (hy : Seen s t y)
    (h : KeyMoved y z k r fire) :
    s.raisedNone (drivePins z) ∧ (drivePins z).key k = r ∧ (∀ k', k' ≠ k → (drivePins z).key k' = s.key k') ∧
      drivePins z = { s.withBook (drivePins z) with keys := (drivePins z).keys, fire := fire } := by
  obtain ⟨hkey, hother, hframe⟩ := h
  obtain ⟨hnone, hframe⟩ := frame_of_keys hy hframe
  exact ⟨hnone, (drivePins_key z k).trans hkey, fun k' hk => (drivePins_key z k').trans ((hother k' hk).trans (by simp [seen_parts hy])), hframe⟩

end Sys2Proof.Machine
end

section
/-! PROOF. Obligations on the rows of one key: a late strike, the end of a pulse, the timers of a key. -/

namespace Sys2Proof.Machine

theorem timerOut_of {r : KeyRec} {now e : Instant} (h : r.timer = some e) (hle : e ≤ now) : timerOut r now = true := by
  simp [timerOut, h, hle]

theorem onPulseEnd_taken {k : Key} {first : Bool} {s : State} (h : (s.key k).state = .firing)
    (ht : timerOut (s.key k) s.now = true) : onPulseEnd k first s = pulseEnds k first s := by
  simp [onPulseEnd, h, ht]

theorem onMinHoldExpiry_taken {k : Key} {s : State} (h : (s.key k).state = .holding)
    (ht : timerOut (s.key k) s.now = true) : onMinHoldExpiry k s = minHoldOut k s := by
  simp [onMinHoldExpiry, h, ht]

theorem onRecoveryExpiry_taken {k : Key} {s : State} (h : (s.key k).state = .releasing)
    (ht : timerOut (s.key k) s.now = true) : onRecoveryExpiry k s = becomesFree k s := by
  simp [onRecoveryExpiry, h, ht]

theorem onKeyResetTimerExpiry_taken {k : Key} {s : State} (h : (s.key k).state = .rest)
    (ht : timerOut (s.key k) s.now = true) : onKeyResetTimerExpiry k s = becomesFree k s := by
  simp [onKeyResetTimerExpiry, h, ht]

/-- What a grant makes of a key depends on the key and the action curve. -/
theorem grantedAt_congr {s z : State} {now : Instant} {w : Waiting} (hkey : z.key w.key = s.key w.key)
    (hexpr : z.expr = s.expr) : z.grantedAt now w = s.grantedAt now w := by
  simp [State.grantedAt, State.curveRow, hkey, hexpr]

/-- The record with which a cool key leaves FIRING outside STOPPING (R106, R107). -/
def KeyRec.pulseEnded (r : KeyRec) (now : Instant) (minHold duty recovery : Nat) : KeyRec :=
  let held := r.entersHolding now minHold duty
  if minHold = 0 then
    if r.releaseOwed then held.releasing (now + Config.unit * recovery) else { held with timer := none }
  else held

theorem minHoldAtOnce_moved {k : Key} {s : State} (h : (s.key k).state = .holding) :
    KeyMoved s (minHoldAtOnce k s) k
      (if s.shadow.minHold = 0 then
        if (s.key k).releaseOwed then (s.key k).releasing (s.now + Config.unit * s.shadow.recovery)
        else { s.key k with timer := none }
      else s.key k) s.fire := by
  by_cases hm : s.shadow.minHold = 0
  · simpa [minHoldAtOnce, hm, h] using minHoldOut_moved h
  · simp only [minHoldAtOnce, hm, false_and, if_false]
    exact ⟨rfl, fun _ _ => rfl, rfl⟩

/-- A key that is not HOLDING is not tested (R129). -/
theorem heatTest_notHolding {k : Key} {s : State} (h : (s.key k).state ≠ .holding) : heatTest k s = s := by
  simp [heatTest, h]

/-- The heat of a key in the state that a pulse ends in is what it was. -/
theorem pulseEnded_heat (r : KeyRec) (now : Instant) (minHold duty recovery : Nat) :
    (r.pulseEnded now minHold duty recovery).heat = r.heat := by
  unfold KeyRec.pulseEnded
  split
  · split <;> rfl
  · rfl

/-- Outside STOPPING a cool key's pulse ends alike in either order of expiry and test (R106, R107). -/
theorem pulseEnds_cool {k : Key} {s : State} (first : Bool) (hs : s.clock.state ≠ .stopping)
    (hw : (s.key k).heat < s.heat.warm) (hh : (s.key k).heat < s.heat.hot) (hf : (s.key k).state = .firing) :
    ∃ z, KeyMoved s z k ((s.key k).pulseEnded s.now s.shadow.minHold s.shadow.holdDuty s.shadow.recovery)
        { s.fire with count := s.fire.count - 1 } ∧ pulseEnds k first s = grantStrikes z := by
  have hheld := enterHolding_moved hf
  have hparts := hheld.parts
  obtain ⟨hkey, -, -⟩ := id hheld
  have hended := hheld.trans (minHoldAtOnce_moved (k := k) (s := enterHolding k s) (by rw [hkey]; rfl))
  simp only [hkey, hparts] at hended
  change KeyMoved s _ k ((s.key k).pulseEnded s.now s.shadow.minHold s.shadow.holdDuty s.shadow.recovery) _ at hended
  refine ⟨_, hended, ?_⟩
  have hcool : heatTest k (enterHolding k s) = enterHolding k s :=
    heatTest_cool (by simpa [hkey, hparts, KeyRec.entersHolding] using hw)
      (by simpa [hkey, hparts, KeyRec.entersHolding] using hh)
  have hcool' : heatTest k (minHoldAtOnce k (enterHolding k s)) = minHoldAtOnce k (enterHolding k s) := by
    have hparts := hended.parts
    obtain ⟨hkey, -, -⟩ := id hended
    refine heatTest_cool ?_ ?_
    · rw [hkey]
      simpa [hparts, pulseEnded_heat] using hw
    · rw [hkey]
      simpa [hparts, pulseEnded_heat] using hh
  cases first <;> simp [pulseEnds, hs, hcool, hcool']

/-- In STOPPING a pulse ends in RELEASING (R106, R118). -/
theorem pulseEnds_stopping {k : Key} {s : State} (first : Bool) (hs : s.clock.state = .stopping)
    (hf : (s.key k).state = .firing) :
    ∃ z, KeyMoved s z k ((s.key k).releasing (s.now + Config.unit * s.shadow.recovery))
        { s.fire with count := s.fire.count - 1 } ∧ pulseEnds k first s = grantStrikes z := by
  have hmoved := toReleasing_moved k s
  rw [if_pos hf] at hmoved
  exact ⟨_, hmoved, by simp [pulseEnds, hs]⟩

end Sys2Proof.Machine

open Sys2Proof Sys2Proof.Machine

/-- Settles O41: `dropWaiting` raises the record, takes the strike out and tells its key. -/
theorem lateStrikeIsDropped : Obligations.late_strike_is_dropped := by
  intro t k w s hr hw hlate
  obtain ⟨y, hy, hrow, -⟩ := partRow_seen (t := t) hr
  have hrow := hrow (onDropLate k)
  have hqueue : y.fire = s.fire := by simp [seen_parts hy]
  have hdrop : onDropLate k y = strikeGone k (raise .dropLate (keyWord k) w.tag (setQueue (withoutKey k s.fire.queue) y)) := by
    have hnow : y.now = s.at t := by simp [seen_parts hy]
    simp [onDropLate, dropWaiting, hqueue, hw, hnow, hlate]
  rw [hdrop] at hrow
  have hkey : ∀ k', (drivePins (strikeGone k (raise .dropLate (keyWord k) w.tag
      (setQueue (withoutKey k s.fire.queue) y)))).key k' = if k' = k then (s.key k).strikeGone else s.key k' := by
    intro k'
    have hgone := strikeGone_key k (raise .dropLate (keyWord k) w.tag (setQueue (withoutKey k s.fire.queue) y)) k'
    exact (drivePins_key _ k').trans (by simpa [seen_parts hy] using hgone)
  refine ⟨_, hrow, ?raised, ?_, ?_, ?_, ?frame⟩
  case raised =>
    exact raised_congr (x := raise .dropLate (keyWord k) w.tag (setQueue (withoutKey k s.fire.queue) y))
      (raise_raised (by simp [seen_parts hy]) (by simp [seen_parts hy])) rfl
  · rintro (h | h) <;> simp [hkey, KeyRec.strikeGone, h]
  · rintro (h | h) <;> simp [hkey, KeyRec.strikeGone, h]
  · intro k' hk
    simp [hkey, hk]
  case frame =>
    refine frame_of_row hy ?_
    apply state_ext
    case clock => apply clock_ext <;> simp [strikeGone, seen_clock hy, seen_owed hy]
    case arb => simpa [strikeGone] using seen_arb_eq hy
    case shadow => simpa [strikeGone] using seen_shadow_eq hy
    case report => apply report_ext <;> simp [strikeGone, seen_parts hy]
    case fire => simp [strikeGone, hqueue, withoutKey]
    all_goals simp [strikeGone, seen_parts hy]

/-- Settles O42: the pulse ends as `pulseEnds_cool` or `pulseEnds_stopping` says; then no strike is granted
(`grantStrikes_idle`) or the first one (`grantStrikes_moved`). -/
theorem pulseEndEntersHoldingOrReleasing : Obligations.pulse_end_enters_holding_or_releasing := by
  intro t k first e s hr hf ht hle ended
  obtain ⟨y, hy, hrow, -⟩ := partRow_seen (t := t) hr
  have hrow := hrow (onPulseEnd k first)
  have hkeys : ∀ k', y.key k' = s.key k' := by simp [seen_parts hy]
  have hnow : y.now = s.at t := by simp [seen_parts hy]
  have hfire : y.fire = s.fire := by simp [seen_parts hy]
  have hheat : y.heat = s.heat := by simp [seen_parts hy]
  have hset : y.shadow.minHold = s.shadow.minHold ∧ y.shadow.holdDuty = s.shadow.holdDuty ∧
      y.shadow.recovery = s.shadow.recovery ∧ y.shadow.fireBudget = s.shadow.fireBudget := by
    rw [hy]
    exact ⟨rfl, rfl, rfl, rfl⟩
  obtain ⟨hmin, hduty, hrecovery, hbudget⟩ := hset
  rw [onPulseEnd_taken (by rwa [hkeys]) (timerOut_of (e := e) (by rwa [hkeys]) (by rwa [hnow]))] at hrow
  have hended : ∀ r z, KeyMoved y z k r { s.fire with count := s.fire.count - 1 } → r.free = false →
      pulseEnds k first y = grantStrikes z → ended r := by
    intro r z hz hrfree hpulse
    rw [hpulse] at hrow
    have hparts := hz.parts
    obtain ⟨hkey, hother, hframe⟩ := id hz
    have hbusy : ∀ x : Waiting, (s.key x.key).free = false → (z.key x.key).free = false := by
      intro x hx
      by_cases hk : x.key = k
      · rwa [hk, hkey]
      · rwa [hother _ hk, hkeys]
    refine ⟨fun hnone => ?idle, fun before w after hq hbefore hne hwfree hcool hpos hfull => ?grants⟩
    case idle =>
      rw [grantStrikes_idle (s := z) (.inl fun x hx => hbusy x (hnone x (by simpa [hparts] using hx)))] at hrow
      exact ⟨_, hrow, hz.row hy⟩
    case grants =>
      have hwk : w.key ≠ k := by
        intro hk
        simp [hk, KeyRec.free, hf] at hwfree
      have hwkey : z.key w.key = s.key w.key := (hother _ hwk).trans (hkeys _)
      have hzfire : z.fire = { s.fire with count := s.fire.count - 1 } := by simp [hparts]
      have hzcount : z.fire.count = s.fire.count - 1 := by rw [hzfire]
      have hzbudget : z.shadow.fireBudget = s.shadow.fireBudget := by simp [hparts, hbudget]
      have hgrant := grantStrikes_moved (s := z) (by rw [hzfire]; exact hq) (fun x hx => hbusy x (hbefore x hx)) hne
        (by rwa [hwkey]) (by simpa [hwkey, hparts, hheat] using hcool) (by rw [hzbudget, hzcount]; omega)
        (.inr (by rw [hzbudget, hzcount]; omega))
      have hcount : s.fire.count - 1 + 1 = s.fire.count := by omega
      rw [grantedAt_congr hwkey (by simp [hparts, seen_parts hy]), hzfire, hcount] at hgrant
      obtain ⟨hgkey, hgother, hgframe⟩ := hgrant
      obtain ⟨hnone, hrowframe⟩ := frame_of_keys (z := grantStrikes z) hy (hgframe.trans (by rw [hframe]))
      refine ⟨_, hrow, hnone, ?_, ?_, fun k' hk hk' => ?_, hrowframe⟩
      · rw [drivePins_key, hgother k hwk.symm, hkey]
      · rw [drivePins_key, hgkey]
        simp [hparts, hnow]
      · rw [drivePins_key, hgother k' hk', hother k' hk, hkeys]
  refine ⟨fun hs hw hlimits => ?holds, fun hs => ?stops⟩
  case stops =>
    obtain ⟨z, hz, hpulse⟩ := pulseEnds_stopping (s := y) (k := k) first (by simpa [seen_clock hy] using hs) (by rwa [hkeys])
    rw [hkeys, hnow, hrecovery, hfire] at hz
    exact hended _ z hz (by simp [KeyRec.free]) hpulse
  case holds =>
    obtain ⟨z, hz, hpulse⟩ := pulseEnds_cool (s := y) (k := k) first (by simpa [seen_clock hy] using hs) (by rwa [hkeys, hheat])
      (by rw [hkeys, hheat]; omega) (by rwa [hkeys])
    rw [hkeys, hnow, hmin, hduty, hrecovery, hfire] at hz
    refine ⟨fun hm => ?_, fun hm ho => ?_, fun hm ho => ?_⟩
    · rw [KeyRec.pulseEnded, if_neg (by omega)] at hz
      exact hended _ z hz (by simp [KeyRec.free]) hpulse
    · rw [KeyRec.pulseEnded, if_pos hm, if_neg (by simp [ho])] at hz
      exact hended _ z hz (by simp [KeyRec.free]) hpulse
    · rw [KeyRec.pulseEnded, if_pos hm, if_pos ho] at hz
      exact hended _ z hz (by simp [KeyRec.free]) hpulse
end

section
/-! PROOF. The timers that release a key and that free it (R107, R111, R105). -/

namespace Sys2Proof.Machine

/-- The first strike that can be granted is for a hot key: it is dropped, and nothing more is granted (R97). -/
theorem grantStrikes_hot {s : State} {before after : List Waiting} {w : Waiting}
    (hq : s.fire.queue = before ++ w :: after) (hne : ∀ x ∈ before ++ after, x.key ≠ w.key)
    (hbusy : ∀ x ∈ before ++ after, (s.key x.key).free = false) (hfree : (s.key w.key).free = true)
    (hhot : s.heat.hot ≤ (s.key w.key).heat) (hplace : s.fire.count < s.shadow.fireBudget) :
    grantStrikes s = strikeGone w.key (raise .dropHot (keyWord w.key) w.tag (setQueue (before ++ after) s)) := by
  rw [grantStrikes_first hq (fun x hx => hbusy x (List.mem_append_left _ hx)) hfree hplace, grantOne_hot hhot, hq,
    withoutKey_middle hne]
  refine grantLoop_none_free (fun x hx => ?_) _
  have hx : x ∈ before ++ after := by simpa [strikeGone] using hx
  simpa [strikeGone_key, hne x hx] using hbusy x hx

/-- The key that becomes free, before the arbiter looks for a grant. -/
theorem becomesFree_eq (k : Key) (s : State) :
    becomesFree k s = grantStrikes (updKey k (fun r => { r with state := .rest, timer := none }) s) := rfl

/-- What a dropped hot strike leaves: the record raised, its key told, the queue without it. -/
theorem dropHot_row {s y z : State} {t : Instant} {k : Key} {r : KeyRec} {fire : Fire} (hy : Seen s t y)
    (hz : KeyMoved y z k r fire) (tag : Word) (q : List Waiting) :
    let x := strikeGone k (raise .dropHot (keyWord k) tag (setQueue q z))
    s.raisedExactly (drivePins x) [(.dropHot, keyWord k, tag)] ∧ (drivePins x).key k = r.strikeGone ∧
      (∀ k', k' ≠ k → (drivePins x).key k' = s.key k') ∧
      drivePins x = { s.withBook (drivePins x) with keys := (drivePins x).keys, fire := { fire with queue := q } } := by
  intro x
  obtain ⟨hkey, hother, hframe⟩ := hz
  have hxkey : ∀ k', (drivePins x).key k' = if k' = k then (z.key k).strikeGone else z.key k' := by
    intro k'
    have hgone := strikeGone_key k (raise .dropHot (keyWord k) tag (setQueue q z)) k'
    exact (drivePins_key _ k').trans (by simpa using hgone)
  refine ⟨?_, by rw [hxkey, if_pos rfl, hkey], fun k' hk => ?_, frame_of_row hy ?_⟩
  · have hreport : (drivePins x).report = (raise .dropHot (keyWord k) tag (setQueue q z)).report := rfl
    have hraised : s.raisedExactly (raise .dropHot (keyWord k) tag (setQueue q z)) [(.dropHot, keyWord k, tag)] := by
      apply raise_raisedExactly <;> rw [hframe] <;> simp [seen_parts hy]
    exact hreport.trans hraised
  · rw [hxkey, if_neg hk, hother k' hk]
    simp [seen_parts hy]
  · generalize z.keys = keys, z.updates = updates at hframe
    subst hframe
    apply state_ext
    case clock => apply clock_ext <;> simp [x, strikeGone, seen_clock hy, seen_owed hy]
    case arb => simpa [x, strikeGone] using seen_arb_eq hy
    case shadow => simpa [x, strikeGone] using seen_shadow_eq hy
    case report => apply report_ext <;> simp [x, strikeGone, seen_parts hy]
    all_goals simp [x, strikeGone, seen_parts hy]

end Sys2Proof.Machine

open Sys2Proof Sys2Proof.Machine

/-- Settles O43: `minHoldOut_moved` for the hold; a key that becomes free is REST, and then the arbiter grants nothing
(`grantStrikes_idle`), grants its strike (`grantStrikes_moved`), or drops it (`grantStrikes_hot`). -/
theorem keyTimersReleaseAndFreeTheKey : Obligations.key_timers_release_and_free_the_key := by
  intro t k e s hr ht hle frees
  obtain ⟨y, hy, hrow, -⟩ := partRow_seen (t := t) hr
  have hkeys : ∀ k', y.key k' = s.key k' := by simp [seen_parts hy]
  have hnow : y.now = s.at t := by simp [seen_parts hy]
  have hfire : y.fire = s.fire := by simp [seen_parts hy]
  have hheat : y.heat = s.heat := by simp [seen_parts hy]
  have hset : y.shadow.recovery = s.shadow.recovery ∧ y.shadow.fireBudget = s.shadow.fireBudget := by
    rw [hy]
    exact ⟨rfl, rfl⟩
  obtain ⟨hrecovery, hbudget⟩ := hset
  have hout : timerOut (y.key k) y.now = true := timerOut_of (e := e) (by rwa [hkeys]) (by rwa [hnow])
  have hfrees : ∀ i, exec i s = .next (drivePins (becomesFree k y)) → frees i := by
    intro i hi
    dsimp only [frees]
    have hz := updKey_moved k (fun r => { r with state := .rest, timer := none }) y
    rw [becomesFree_eq] at hi
    rw [hkeys, hfire] at hz
    generalize updKey k (fun r => { r with state := .rest, timer := none }) y = z at hi hz
    have hparts := hz.parts
    obtain ⟨hkey, hother, hframe⟩ := id hz
    have hrested : ({ s.key k with state := .rest, timer := none } : KeyRec).free = true := by simp [KeyRec.free]
    have hzfire : z.fire = s.fire := by simp [hparts]
    have hzbudget : z.shadow.fireBudget = s.shadow.fireBudget := by simp [hparts, hbudget]
    have hbusy : ∀ x : Waiting, x.key ≠ k ∧ (s.key x.key).free = false → (z.key x.key).free = false := by
      rintro x ⟨hk, hx⟩
      rwa [hother _ hk, hkeys]
    refine ⟨hrested, fun h => ?idle, fun before w later hq hw hothers hplace => ?first⟩
    case idle =>
      rw [grantStrikes_idle (s := z) (by
        rw [hzbudget, hzfire]
        exact h.imp_left (fun h x hx => hbusy x (h x hx)))] at hi
      exact ⟨_, hi, hz.row hy⟩
    case first =>
      subst hw
      have hne : ∀ x ∈ before ++ later, x.key ≠ w.key := fun x hx => (hothers x hx).1
      have hnone : ∀ x ∈ before ++ later, (z.key x.key).free = false := fun x hx => hbusy x (hothers x hx)
      refine ⟨fun hcool => ?grants, fun hhot => ?drops⟩
      case grants =>
        have hgrant := grantStrikes_moved (s := z) (by rw [hzfire]; exact hq)
          (fun x hx => hnone x (List.mem_append_left _ hx)) hne (by rw [hkey]; exact hrested)
          (by rw [hkey]; simpa [hparts, hheat] using hcool) (by rw [hzbudget, hzfire]; exact hplace) (.inl hnone)
        have hgranted : z.grantedAt z.now w = s.grantedAt (s.at t) w := by
          simp [State.grantedAt, State.curveRow, hkey, hparts, seen_parts hy]
        rw [hgranted, hzfire] at hgrant
        exact ⟨_, hi, (hz.trans hgrant).row hy⟩
      case drops =>
        rw [grantStrikes_hot (s := z) (by rw [hzfire]; exact hq) hne hnone (by rw [hkey]; exact hrested)
          (by rw [hkey]; simpa [hparts, hheat] using hhot) (by rw [hzbudget, hzfire]; exact hplace)] at hi
        exact ⟨_, hi, dropHot_row hy hz w.tag (before ++ later)⟩
  refine ⟨fun hk => ?holding, fun hk => ?releasing, fun hk => ?rest⟩
  case holding =>
    have hrow := hrow (onMinHoldExpiry k)
    have hk : (y.key k).state = .holding := by rwa [hkeys]
    have hmoved := minHoldOut_moved hk
    rw [onMinHoldExpiry_taken hk hout] at hrow
    rw [hkeys, hnow, hrecovery, hfire] at hmoved
    have ⟨hnone, hkey, hother, hframe⟩ := hmoved.row hy
    exact ⟨_, hrow, hnone, hkey, hother, hframe⟩
  case releasing =>
    have hrow := hrow (onRecoveryExpiry k)
    rw [onRecoveryExpiry_taken (by rwa [hkeys]) hout] at hrow
    exact hfrees _ hrow
  case rest =>
    have hrow := hrow (onKeyResetTimerExpiry k)
    rw [onKeyResetTimerExpiry_taken (by rwa [hkeys]) hout] at hrow
    exact hfrees _ hrow
end

section
/-! PROOF. The heat of a held key, the heat step and the KD period (R122, R125, R129 to R131). -/

namespace Sys2Proof.Machine

/-! ## The test of a HOLDING key (R129) -/

theorem heatTest_hot {k : Key} {s : State} (h : (s.key k).state = .holding) (hh : s.heat.hot ≤ (s.key k).heat) :
    heatTest k s = earlyRelease k earlyHot s := by
  simp [heatTest, h, State.isHot, hh]

theorem heatTest_warmSustained {k : Key} {s : State} (h : (s.key k).state = .holding)
    (hh : (s.key k).heat < s.heat.hot) (hw : s.heat.warm ≤ (s.key k).heat) (hs : s.sustained k = true) :
    heatTest k s = earlyRelease k earlyWarmSustained s := by
  simp [heatTest, h, State.isHot, State.isWarm, Nat.not_le.mpr hh, hw, hs]

theorem heatTest_warm {k : Key} {s : State} (h : (s.key k).state = .holding)
    (hh : (s.key k).heat < s.heat.hot) (hw : s.heat.warm ≤ (s.key k).heat) (hs : s.sustained k = false) :
    heatTest k s = if (s.key k).reduced then s else reduceHold k s := by
  simp [heatTest, h, State.isHot, State.isWarm, Nat.not_le.mpr hh, hw, hs]

theorem endNote_sched (k : Key) (s : State) : (endNote k (s.key k).note s).sched = s.noteEnded k s.sched := by
  cases hn : (s.key k).note with
  | none => simp only [endNote, State.noteEnded, hn]
  | some serial => simp only [endNote, State.noteEnded, hn, setSched]

/-- An early release leaves the Firing Arbiter alone: its key was HOLDING. -/
theorem earlyRelease_fire {k : Key} {s : State} (c : Word) (h : (s.key k).state = .holding) :
    (earlyRelease k c s).fire = s.fire := by
  obtain ⟨-, -, hfire, hkeys⟩ := endNote_parts k (s.key k).note s
  simp only [earlyRelease, raise_keeps]
  rw [toReleasing_fire _ _ (by rw [hkeys, h]; decide), hfire]

/-! ## The heat step (R125) -/

/-- Only keys, schedule and outstanding reports have moved on. -/
def HeatMoved (s z : State) : Prop :=
  OnlyRaised s.report z.report ∧
    z = { s with keys := z.keys, sched := z.sched, report := z.report, updates := z.updates }

theorem HeatMoved.refl (s : State) : HeatMoved s s := ⟨.refl _, rfl⟩

theorem HeatMoved.trans {s y z : State} (h : HeatMoved s y) (h' : HeatMoved y z) : HeatMoved s z := by
  obtain ⟨hreport, hframe⟩ := h
  obtain ⟨hreport', hframe'⟩ := h'
  refine ⟨hreport.trans hreport', ?_⟩
  rw [hframe', hframe]

theorem heatTest_onlyRaised (k : Key) (s : State) : OnlyRaised s.report (heatTest k s).report := by
  unfold heatTest earlyRelease reduceHold
  (repeat' split) <;> apply report_ext <;> simp

theorem heatKey_moved (s : State) (k : Key) : HeatMoved s (heatKey s k) := by
  obtain ⟨-, hfire, -⟩ := heatKey_parts s k
  refine ⟨?_, ?_⟩
  · have hraised := heatTest_onlyRaised k (updKey k (fun r => { r with heat := heatAfter s.heat r.heat (s.appliedDuty k) }) s)
    exact hraised
  · apply state_ext
    case fire => simpa using hfire
    all_goals simp

theorem foldl_heatMoved (l : List Key) (s : State) : HeatMoved s (l.foldl heatKey s) := by
  induction l generalizing s with
  | nil => exact .refl s
  | cons k l ih => exact (heatKey_moved s k).trans (ih _)

/-- The record of a HOLDING key that the heat step finds hot (R125, R130). -/
theorem heatKey_hot {s : State} {k : Key} (h : (s.key k).state = .holding)
    (hh : s.heat.hot ≤ heatAfter s.heat (s.key k).heat (s.appliedDuty k)) :
    (heatKey s k).key k =
      { (s.key k) with heat := heatAfter s.heat (s.key k).heat (s.appliedDuty k) }.releasing
        (s.now + Config.unit * s.shadow.recovery) := by
  rw [heatKey, heatTest_hot (by simpa [updKey_key] using h) (by simpa [updKey_key] using hh), earlyRelease_key,
    if_pos rfl]
  simp [updKey_key]

/-- The record of a key that the heat step finds below both limits (R125, R129). -/
theorem heatKey_cool {s : State} {k : Key}
    (hw : heatAfter s.heat (s.key k).heat (s.appliedDuty k) < s.heat.warm)
    (hh : heatAfter s.heat (s.key k).heat (s.appliedDuty k) < s.heat.hot) :
    (heatKey s k).key k = { s.key k with heat := heatAfter s.heat (s.key k).heat (s.appliedDuty k) } := by
  rw [heatKey, heatTest_cool (by simpa [updKey_key] using hw) (by simpa [updKey_key] using hh), updKey_key, if_pos rfl]

/-- In the step over all keys, key k is stepped in a state that differs from the first in keys, schedule and reports alone, and
in which key k is as it was. -/
theorem foldl_heatKey_at {l : List Key} {k : Key} (hl : l.Nodup) (hk : k ∈ l) (s : State) :
    ∃ x, HeatMoved s x ∧ x.key k = s.key k ∧ (l.foldl heatKey s).key k = (heatKey x k).key k := by
  induction l generalizing s with
  | nil => simp at hk
  | cons a l ih =>
    obtain ⟨hal, hrest⟩ := List.nodup_cons.mp hl
    by_cases ha : k = a
    · subst ha
      obtain ⟨-, -, hkeys⟩ := heatKey_fold l (heatKey s k) hrest
      exact ⟨s, .refl s, rfl, (hkeys k).1 hal⟩
    · obtain ⟨x, hx, hkey, hfold⟩ := ih hrest ((List.mem_cons.mp hk).resolve_left ha) (heatKey s a)
      exact ⟨x, (heatKey_moved s a).trans hx, hkey.trans ((heatKey_key s a k).1 ha), hfold⟩

theorem onHeatStep_taken {s : State} (h : s.heat.next ≤ s.now) :
    onHeatStep s = allKeys.foldl heatKey { s with heat := { s.heat with next := s.heat.next + Config.heatPeriod } } :=
  if_pos h

/-- The numbers below `m` that lie below `n`. -/
theorem length_filter_range_lt (m n : Nat) : ((List.range m).filter (fun e => decide (e < n))).length = min n m := by
  induction m with
  | zero => simp
  | succ m ih =>
    rw [List.range_succ, List.filter_append, List.length_append, ih]
    by_cases h : m < n <;> simp [h] <;> omega

theorem onKdPeriodStart_taken {s : State} (h : s.kdNext ≤ s.now) :
    onKdPeriodStart s = { s with
      kdNext := s.kdNext + Config.kdPeriod
      keys := Bank.tabulate 88 (fun i => { s.key (Fin.ofNat 88 i) with kd := s.appliedDuty (Fin.ofNat 88 i) }) } :=
  if_pos h

end Sys2Proof.Machine

open Sys2Proof Sys2Proof.Machine

/-- Settles O45: the cases of `heatTest`, and what `earlyRelease` and `reduceHold` do. -/
theorem heldKeyIsTestedAgainstTheLimits : Obligations.held_key_is_tested_against_the_limits := by
  intro k s hk hlimits sustained
  have hsustained : s.sustained k = sustained := by simp [State.sustained, sustained]
  refine ⟨fun hh => heatTest_hot hk hh, fun hh hw hs => heatTest_warmSustained hk hh hw (hsustained.trans hs),
    fun hh hw hs hreduced => ?reduced, fun h => ?nothing, fun cause => ?early⟩
  case reduced =>
    rw [heatTest_warm hk hh hw (hsustained.trans hs), hreduced, if_neg (by decide)]
    refine ⟨by simp [reduceHold_key, State.holdDutyOf], raise_raisedExactly (by simp) (by simp),
      fun k' hk' => by simp [reduceHold_key, hk'], ?_⟩
    apply state_ext
    case report => apply report_ext <;> simp [reduceHold]
    all_goals simp [reduceHold]
  case nothing =>
    rcases h with hw | ⟨hh, hs, hreduced⟩
    · exact heatTest_cool hw (by omega)
    · by_cases hw : s.heat.warm ≤ (s.key k).heat
      · simp [heatTest_warm hk hh hw (hsustained.trans hs), hreduced]
      · exact heatTest_cool (by omega) hh
  case early =>
    intro s'
    have hfire := earlyRelease_fire cause hk
    refine ⟨by simp [s', earlyRelease_key, KeyRec.releasing, Config.unit], raise_raisedExactly (by simp) (by simp),
      fun k' hk' => by simp [s', earlyRelease_key, hk'], ?_⟩
    apply state_ext
    case fire => simpa using hfire
    case report => apply report_ext <;> simp [s', earlyRelease]
    case sched => simp [s', earlyRelease, endNote_sched]
    all_goals simp [s', earlyRelease]

/-- Settles O44: the heat step by `foldl_heatKey_at` at each key, the KD period by its table of applied duties. -/
theorem heatStepsAndKdPeriodsUseTheAppliedDuty : Obligations.heat_steps_and_kd_periods_use_the_applied_duty := by
  intro t s applied heat
  refine ⟨fun hr hdue => ?step, fun hr hdue => ?period, fun k hk hr => ⟨?_, fun h e => ?_, fun h e he => ?_⟩,
    fun hr k e => by simp [State.kdOnAt, hr]⟩
  case step =>
    obtain ⟨y, hy, hrow, -⟩ := partRow_seen (t := t) hr
    have hrow := hrow onHeatStep
    have hnow : y.now = s.at t := by simp [seen_parts hy]
    have hheat : y.heat = s.heat := by simp [seen_parts hy]
    have hrecovery : y.shadow.recovery = s.shadow.recovery := by
      rw [hy]
      rfl
    rw [onHeatStep_taken (by rwa [hnow, hheat])] at hrow
    generalize hz : ({ y with heat := { y.heat with next := y.heat.next + Config.heatPeriod } } : State) = z at hrow
    have hmoved := foldl_heatMoved allKeys z
    have hat : ∀ k, ∃ x : State, (drivePins (allKeys.foldl heatKey z)).key k = (heatKey x k).key k ∧
        x.key k = s.key k ∧ heatAfter x.heat (x.key k).heat (x.appliedDuty k) = heat k ∧
        x.heat.hot = s.heat.hot ∧ x.heat.warm = s.heat.warm ∧
        x.now + Config.unit * x.shadow.recovery = s.at t + 100 * s.shadow.recovery := by
      intro k
      obtain ⟨x, ⟨-, hx⟩, hxkey, hfold⟩ := foldl_heatKey_at allKeys_nodup (mem_allKeys k) z
      have hkey : x.key k = s.key k := by
        rw [hxkey, ← hz]
        exact (show _ = y.key k from rfl).trans (by simp [seen_parts hy])
      have hxheat : x.heat = { s.heat with next := s.heat.next + Config.heatPeriod } := by rw [hx, ← hz, hheat]
      have hxinh : x.inh = s.inh := by
        rw [hx, ← hz]
        exact (show _ = y.inh from rfl).trans (by simp [seen_parts hy])
      have hxnow : x.now = s.at t := by
        rw [hx, ← hz]
        exact (show _ = y.now from rfl).trans hnow
      have hxrecovery : x.shadow.recovery = s.shadow.recovery := by
        rw [hx, ← hz]
        exact (show _ = y.shadow.recovery from rfl).trans hrecovery
      refine ⟨x, (drivePins_key _ k).trans hfold, hkey, ?_, by rw [hxheat], by rw [hxheat], ?_⟩
      · simp only [State.appliedDuty, hkey, hxinh, hxheat]
        rfl
      · rw [hxnow, hxrecovery, Config.unit]
    refine ⟨_, hrow, fun k => ?_, fun k hcold => ?_, fun k hk hhot => ?_, ?frame⟩
    · obtain ⟨x, hfold, -, hheated, -⟩ := hat k
      rw [hfold, ← hheated]
      exact (heatKey_key x k k).2.1
    · obtain ⟨x, hfold, hkey, hheated, hxhot, hxwarm, -⟩ := hat k
      rw [hfold, ← hkey, ← hheated]
      rcases hcold with hk | ⟨hw, hh⟩
      · exact (heatKey_key x k k).2.2 (by rwa [hkey])
      · exact heatKey_cool (by rwa [hheated, hxwarm]) (by rwa [hheated, hxhot])
    · obtain ⟨x, hfold, hkey, hheated, hxhot, -, hexpiry⟩ := hat k
      have hholding : (x.key k).state = .holding := by rw [hkey]; exact hk
      have hreleased := heatKey_hot hholding (by rw [hheated, hxhot]; exact hhot)
      rw [hheated, hexpiry, hkey] at hreleased
      exact hfold.trans hreleased
    case frame =>
      obtain ⟨hreport, hframe⟩ := hmoved
      generalize allKeys.foldl heatKey z = x at hreport hframe
      generalize x.keys = keys, x.sched = sched, x.report = report, x.updates = updates at hreport hframe
      subst hframe
      subst hz
      refine frame_of_row hy ?_
      apply state_ext
      case clock => apply clock_ext <;> simp [seen_clock hy, seen_owed hy]
      case arb => simpa using seen_arb_eq hy
      case shadow => simpa using seen_shadow_eq hy
      case report => simpa [OnlyRaised, seen_parts hy] using hreport
      case heat => simp [hheat, Config.heatPeriod]
      all_goals simp [seen_parts hy]
  case period =>
    obtain ⟨y, hy, hrow, -⟩ := partRow_seen (t := t) hr
    have hrow := hrow onKdPeriodStart
    have hkeys : ∀ k', y.key k' = s.key k' := by simp [seen_parts hy]
    have happlied : ∀ k, y.appliedDuty k = applied k := by
      intro k
      simp [State.appliedDuty, hkeys, applied, seen_parts hy]
    rw [onKdPeriodStart_taken (by simpa [seen_parts hy] using hdue)] at hrow
    have hkd : ∀ k, (drivePins { y with
        kdNext := y.kdNext + Config.kdPeriod
        keys := Bank.tabulate 88 fun i => { y.key (Fin.ofNat 88 i) with kd := y.appliedDuty (Fin.ofNat 88 i) } }).key k =
        { s.key k with kd := applied k } := by
      intro k
      rw [drivePins_key, State.key, Bank.get_tabulate, happlied, hkeys]
      simp
    refine ⟨_, hrow, by simp [State.raisedNone, seen_parts hy], hkd, fun k e => ?_, frame_of_row hy ?_⟩
    · rw [State.kdOnAt, hkd]
      simp [seen_parts hy, hr]
    · apply state_ext
      case clock => apply clock_ext <;> simp [seen_clock hy, seen_owed hy]
      case arb => simpa using seen_arb_eq hy
      case shadow => simpa using seen_shadow_eq hy
      all_goals simp [seen_parts hy, Config.kdPeriod]
  · have hon : s.kdOnAt k = fun e => decide (e < 25 * (s.key k).kd) := by
      funext e
      simp [State.kdOnAt, hr]
    rw [hon, length_filter_range_lt]
    omega
  · simp [State.kdOnAt, h]
  · simp [State.kdOnAt, h, hr]
    omega
end

section
/-! PROOF. The pedal link (R137 to R145): the choice of the next move, the frame of a pedal row, and its obligations. -/

namespace Sys2Proof.Machine

/-! ## The choice of the next move (R139) -/

theorem choosePedal_congr {u v : PedalUnit} (h : ∀ p, (u.pedal p).waiting = (v.pedal p).waiting) :
    choosePedal u = choosePedal v := by
  simp only [choosePedal, h]

/-- Move `m` of pedal `p` goes before move `n` of pedal `q`, or is the same. -/
def goesBefore (p : Pedal) (m : Move) (q : Pedal) (n : Move) : Prop :=
  m.due < n.due ∨ m.due = n.due ∧ pedalNumber p ≤ pedalNumber q

/-- The pedal chosen so far, and one more in number order. -/
def choosePedalStep (u : PedalUnit) (best : Option (Pedal × Move)) (p : Pedal) : Option (Pedal × Move) :=
  match (u.pedal p).waiting with
  | none => best
  | some m =>
    match best with
    | none => some (p, m)
    | some (_, m') => if m.due < m'.due then some (p, m) else best

theorem choosePedal_eq (u : PedalUnit) : choosePedal u = allPedals.foldl (choosePedalStep u) none := rfl

theorem goesBefore_trans {p q r : Pedal} {l m n : Move} (h : goesBefore p l q m) (h' : goesBefore q m r n) :
    goesBefore p l r n := by
  unfold goesBefore at *
  grind

/-- A pedal with a move waiting, after the best so far: the better of the two is kept. -/
theorem choosePedalStep_some {u : PedalUnit} {best : Option (Pedal × Move)} {a : Pedal} {m : Move}
    (hm : (u.pedal a).waiting = some m) (hbest : ∀ b ∈ best, pedalNumber b.1 ≤ pedalNumber a) :
    ∃ c, choosePedalStep u best a = some c ∧ (c = (a, m) ∨ c ∈ best) ∧ goesBefore c.1 c.2 a m ∧
      ∀ b ∈ best, goesBefore c.1 c.2 b.1 b.2 := by
  unfold choosePedalStep
  rw [hm]
  cases best with
  | none => exact ⟨_, rfl, .inl rfl, .inr ⟨rfl, Nat.le_refl _⟩, by simp⟩
  | some b =>
    have hle := hbest b rfl
    by_cases hdue : m.due < b.2.due
    · refine ⟨_, if_pos hdue, .inl rfl, .inr ⟨rfl, Nat.le_refl _⟩, fun c hc => ?_⟩
      cases hc
      exact .inl hdue
    · refine ⟨_, if_neg hdue, .inr rfl, ?_, fun c hc => ?_⟩
      · unfold goesBefore
        grind
      · cases hc
        exact .inr ⟨rfl, Nat.le_refl _⟩

/-- Over pedals in number order the fold goes before every one of them, and before the best it began with. -/
theorem foldl_choosePedalStep_first (u : PedalUnit) (l : List Pedal) (best : Option (Pedal × Move))
    (hsorted : l.Pairwise (fun p q => pedalNumber p ≤ pedalNumber q))
    (hbest : ∀ b ∈ best, ∀ q ∈ l, pedalNumber b.1 ≤ pedalNumber q) {p : Pedal} {m : Move}
    (h : l.foldl (choosePedalStep u) best = some (p, m)) :
    (∀ b ∈ best, goesBefore p m b.1 b.2) ∧ ∀ q ∈ l, ∀ n, (u.pedal q).waiting = some n → goesBefore p m q n := by
  induction l generalizing best with
  | nil =>
    rw [List.foldl_nil] at h
    subst h
    exact ⟨fun b hb => by cases hb; exact .inr ⟨rfl, Nat.le_refl _⟩, by simp⟩
  | cons a l ih =>
    obtain ⟨ha, hsorted⟩ := List.pairwise_cons.mp hsorted
    rw [List.foldl_cons] at h
    cases hw : (u.pedal a).waiting with
    | none =>
      have hskip : choosePedalStep u best a = best := by simp [choosePedalStep, hw]
      rw [hskip] at h
      obtain ⟨hfirst, hrest⟩ := ih best hsorted (fun b hb q hq => hbest b hb q (List.mem_cons_of_mem _ hq)) h
      refine ⟨hfirst, fun q hq n hn => ?_⟩
      rcases List.mem_cons.mp hq with rfl | hq
      · simp [hw] at hn
      · exact hrest q hq n hn
    | some m1 =>
      obtain ⟨c, hc, hcases, hca, hcb⟩ := choosePedalStep_some hw (fun b hb => hbest b hb a List.mem_cons_self)
      rw [hc] at h
      have hnumber : ∀ b ∈ some c, ∀ q ∈ l, pedalNumber b.1 ≤ pedalNumber q := by
        intro b hb q hq
        cases hb
        rcases hcases with rfl | hmem
        · exact ha q hq
        · exact hbest c hmem q (List.mem_cons_of_mem _ hq)
      obtain ⟨hfirst, hrest⟩ := ih (some c) hsorted hnumber h
      have hpc := hfirst c rfl
      refine ⟨fun b hb => goesBefore_trans hpc (hcb b hb), fun q hq n hn => ?_⟩
      rcases List.mem_cons.mp hq with rfl | hq
      · rw [hw] at hn
        cases hn
        exact goesBefore_trans hpc hca
      · exact hrest q hq n hn

theorem choosePedal_first {u : PedalUnit} {p : Pedal} {m : Move} (h : choosePedal u = some (p, m)) (q : Pedal) (n : Move)
    (hq : (u.pedal q).waiting = some n) : goesBefore p m q n := by
  have hsorted : allPedals.Pairwise (fun p q => pedalNumber p ≤ pedalNumber q) := by decide
  have hmem : q ∈ allPedals := by cases q <;> decide
  exact (foldl_choosePedalStep_first u allPedals none hsorted (by simp) h).2 q hmem n hq

theorem pedalNumber_inj {p q : Pedal} (h : pedalNumber p = pedalNumber q) : p = q := by
  revert h
  cases p <;> cases q <;> decide

/-- The pedal chosen is the one whose waiting move goes first. -/
theorem choosePedal_iff {u : PedalUnit} {p : Pedal} {m : Move} :
    choosePedal u = some (p, m) ↔
      (u.pedal p).waiting = some m ∧ ∀ q n, (u.pedal q).waiting = some n → goesBefore p m q n := by
  refine ⟨fun h => ⟨choosePedal_some h, choosePedal_first h⟩, fun ⟨hp, hfirst⟩ => ?_⟩
  cases h : choosePedal u with
  | none => simp [choosePedal_none.mp h p] at hp
  | some x =>
    obtain ⟨q, n⟩ := x
    have hq := choosePedal_some h
    have hqp := choosePedal_first h p m hp
    have hpq := hfirst q n hq
    unfold goesBefore at hqp hpq
    obtain rfl : p = q := pedalNumber_inj (by grind)
    rw [hp] at hq
    rw [Option.some.inj hq]

/-! ## The link after its choice (R139) -/

/-- An idle link that chooses sends the chosen move, or stays idle. -/
theorem linkSend_next {s : State} (h : s.pedals.link = .idle) :
    (linkSend s).linkNext s.now (choosePedal s.pedals) s.pedals.pedal := by
  rcases linkSend_cases s with ⟨hsame, hl | hnone⟩ | ⟨p, m, -, hc, hsend⟩
  · exact absurd h hl
  · rw [hsame, hnone]
    exact ⟨h, fun _ => rfl⟩
  · rw [hsend, hc]
    refine ⟨rfl, fun q => ?_⟩
    rw [setLink_pedal, updPedal_pedal]
    by_cases hq : q = p
    · rw [if_pos hq, if_pos hq, hq]
    · rw [if_neg hq, if_neg hq]

theorem linkNext_drivePins {s : State} {now : Instant} {chosen : Option (Pedal × Move)} {recs : Pedal → PedalRec}
    (h : s.linkNext now chosen recs) : (drivePins s).linkNext now chosen recs := h

/-! ## The frame of a pedal row -/

/-- Only the pedal unit and the outstanding reports have moved on. -/
def PedalsMoved (s z : State) : Prop :=
  OnlyRaised s.report z.report ∧ z = { s with pedals := z.pedals, report := z.report, updates := z.updates }

theorem PedalsMoved.trans {s y z : State} (h : PedalsMoved s y) (h' : PedalsMoved y z) : PedalsMoved s z := by
  obtain ⟨hreport, hframe⟩ := h
  obtain ⟨hreport', hframe'⟩ := h'
  refine ⟨hreport.trans hreport', ?_⟩
  rw [hframe', hframe]

theorem setLink_pedalsMoved (l : Link) (s : State) : PedalsMoved s (setLink l s) := ⟨.refl _, rfl⟩

theorem updPedal_pedalsMoved (p : Pedal) (f : PedalRec → PedalRec) (s : State) : PedalsMoved s (updPedal p f s) :=
  ⟨.refl _, rfl⟩

theorem setRx_pedalsMoved (bytes : List Byte) (e : Instant) (s : State) : PedalsMoved s (setRx bytes e s) :=
  ⟨.refl _, rfl⟩

theorem setSost_pedalsMoved (l : List Key) (s : State) : PedalsMoved s (setSost l s) := ⟨.refl _, rfl⟩

theorem raise_pedalsMoved (k : ReportKind) (a d : Word) (s : State) : PedalsMoved s (raise k a d s) :=
  ⟨raise_onlyRaised k a d s, by apply state_ext <;> simp⟩

theorem PedalsMoved.refl (s : State) : PedalsMoved s s := ⟨.refl _, rfl⟩

theorem linkSend_pedalsMoved (s : State) : PedalsMoved s (linkSend s) := by
  rcases linkSend_cases s with ⟨h, -⟩ | ⟨p, m, -, -, h⟩ <;> rw [h]
  · exact .refl s
  · exact (updPedal_pedalsMoved _ _ s).trans (setLink_pedalsMoved _ _)

/-- A row that moved the pedal unit alone on. -/
theorem frame_of_pedals {s y z : State} {t : Instant} {pedals : PedalUnit} (hy : Seen s t y) (h : PedalsMoved y z)
    (hp : z.pedals = pedals) : drivePins z = { s.withBook (drivePins z) with pedals := pedals } := by
  obtain ⟨hreport, hframe⟩ := h
  subst hp
  generalize z.pedals = pedals, z.report = report, z.updates = updates at hreport hframe
  subst hframe
  refine frame_of_row hy ?_
  apply state_ext
  case clock => apply clock_ext <;> simp [seen_clock hy, seen_owed hy]
  case arb => simpa using seen_arb_eq hy
  case shadow => simpa using seen_shadow_eq hy
  case report => simpa [OnlyRaised, seen_parts hy] using hreport
  all_goals simp [seen_parts hy]

/-! ## Frames received whole (R140, R141, R142, R144) -/

theorem onAck_whole {s : State} (h : s.pedals.rxBytes = []) (p : Pedal) (depth : BitVec 4) :
    onAck p depth s = takeAck p depth.toNat (setRx [] s.now s) := receiveFrame_made h .ack (by decide) p depth

theorem onNak_whole {s : State} (h : s.pedals.rxBytes = []) (p : Pedal) (depth : BitVec 4) :
    onNak p depth s = takeNak p depth.toNat (setRx [] s.now s) := receiveFrame_made h .nak (by decide) p depth

theorem onArrived_whole {s : State} (h : s.pedals.rxBytes = []) (p : Pedal) (depth : BitVec 4) :
    onArrived p depth s = takeArrived p depth.toNat (setRx [] s.now s) :=
  receiveFrame_made h .arrived (by decide) p depth

/-- The record of a pedal whose move is acknowledged, before the link chooses (R141). -/
def ackTaken (p : Pedal) (s : State) : State :=
  setLink .idle
    (updPedal p
      (fun r => { r with motion := .moving, retries := 0, travel := some (s.now + 1000 * s.pedals.travelLimit) }) s)

theorem takeAck_matches {s : State} {p : Pedal} {depth : Nat} {e : Instant}
    (h : s.pedals.link = .awaiting { pedal := p, depth := depth } e) : takeAck p depth s = linkSend (ackTaken p s) := by
  simp [takeAck, h, ackTaken]

/-- A reply that matches no frame awaited is ignored (R140). -/
theorem takeAck_ignored {s : State} {p : Pedal} {depth : Nat}
    (h : ∀ e, s.pedals.link ≠ .awaiting { pedal := p, depth := depth } e) : takeAck p depth s = s := by
  unfold takeAck
  split
  · rfl
  · rfl
  · rename_i f e hl
    exact if_neg (by rintro rfl; exact h e hl)

theorem takeNak_ignored {s : State} {p : Pedal} {depth : Nat}
    (h : ∀ e, s.pedals.link ≠ .awaiting { pedal := p, depth := depth } e) : takeNak p depth s = s := by
  unfold takeNak
  split
  · rfl
  · rfl
  · rename_i f e hl
    exact if_neg (by rintro rfl; exact h e hl)

theorem takeNak_matches {s : State} {p : Pedal} {depth : Nat} {e : Instant}
    (h : s.pedals.link = .awaiting { pedal := p, depth := depth } e) :
    takeNak p depth s = retransfer { pedal := p, depth := depth } s := by
  simp [takeNak, h]

theorem onMoveFrameSent_taken {s : State} {f : Frame} {start : Instant} (h : s.pedals.link = .sending f start none)
    (hle : start + 120 ≤ s.now) :
    onMoveFrameSent s = setLink (.awaiting f (s.now + Config.unit * s.pedals.replyTimeout)) s := by
  simp [onMoveFrameSent, h, Config.frameTime, hle]

theorem onLinkByteEndAbort_taken {s : State} {f : Frame} {start e : Instant}
    (h : s.pedals.link = .sending f start (some e)) (hle : e ≤ s.now) :
    onLinkByteEndAbort s = linkSend (setLink .idle s) := by
  simp [onLinkByteEndAbort, h, hle]

end Sys2Proof.Machine
end

section
/-! PROOF. Obligation: frames are sent and acknowledged (R139, R141, R147). -/

open Sys2Proof Sys2Proof.Machine

/-- Settles O46: each row's effect is a link state or `linkSend` at an idle link (`linkSend_next`); `choosePedal_iff` says
which move that is. -/
theorem framesAreSentAndAcknowledged : Obligations.frames_are_sent_and_acknowledged := by
  refine ⟨fun t s hr => ⟨fun f start hl hle => ?sent, fun f start e hl hle => ?abort, fun p depth e hrx hl => ?ack⟩,
    fun u => ⟨choosePedal_none, fun p m => choosePedal_iff, fun depth due h => ?tie⟩⟩
  case sent =>
    obtain ⟨y, hy, hrow, -⟩ := partRow_seen (t := t) hr
    have hrow := hrow onMoveFrameSent
    have hpedals : y.pedals = s.pedals := by simp [seen_parts hy]
    have hnow : y.now = s.at t := by simp [seen_parts hy]
    rw [onMoveFrameSent_taken (by rw [hpedals]; exact hl) (by rwa [hnow])] at hrow
    refine ⟨_, hrow, by simp [State.raisedNone, seen_parts hy], frame_of_pedals hy (setLink_pedalsMoved _ _) ?_⟩
    simp [hpedals, hnow, Config.unit]
  case abort =>
    obtain ⟨y, hy, hrow, -⟩ := partRow_seen (t := t) hr
    have hrow := hrow onLinkByteEndAbort
    have hpedals : y.pedals = s.pedals := by simp [seen_parts hy]
    have hnow : y.now = s.at t := by simp [seen_parts hy]
    rw [onLinkByteEndAbort_taken (by rw [hpedals]; exact hl) (by rwa [hnow])] at hrow
    have hnext := linkSend_next (s := setLink .idle y) rfl
    have hchoice : choosePedal (setLink .idle y).pedals = choosePedal s.pedals :=
      choosePedal_congr fun q => by rw [setLink_pedal, hpedals]
    have hrecs : (setLink .idle y).pedals.pedal = s.pedals.pedal := by
      funext q
      rw [setLink_pedal, hpedals]
    rw [hchoice, hrecs, show (setLink .idle y).now = s.at t from hnow] at hnext
    refine ⟨_, hrow, by simp [State.raisedNone, seen_parts hy], linkNext_drivePins hnext,
      frame_of_pedals hy ((setLink_pedalsMoved _ _).trans (linkSend_pedalsMoved _)) ?_⟩
    rw [linkSend_pedals]
    simp [hpedals]
  case ack =>
    obtain ⟨y, hy, hrow, -⟩ := partRow_seen (t := t) hr
    have hrow := hrow (onAck p depth)
    have hpedals : y.pedals = s.pedals := by simp [seen_parts hy]
    have hnow : y.now = s.at t := by simp [seen_parts hy]
    rw [onAck_whole (by rw [hpedals]; exact hrx), takeAck_matches (e := e) (by simpa [hpedals] using hl)] at hrow
    have hmoved : PedalsMoved y (ackTaken p (setRx [] y.now y)) :=
      (setRx_pedalsMoved _ _ _).trans ((updPedal_pedalsMoved _ _ _).trans (setLink_pedalsMoved _ _))
    have hrecs : (ackTaken p (setRx [] y.now y)).pedals.pedal = fun q =>
        if q = p then
          { s.pedals.pedal p with
            motion := .moving, retries := 0, travel := some (s.at t + 1000 * s.pedals.travelLimit) }
        else s.pedals.pedal q := by
      funext q
      rw [ackTaken, setLink_pedal, updPedal_pedal]
      simp only [setRx_keeps, setRx_pedals, hpedals, hnow]
      rfl
    have hchoice : choosePedal (ackTaken p (setRx [] y.now y)).pedals = choosePedal s.pedals :=
      choosePedal_congr fun q => by
        rw [hrecs]
        by_cases hq : q = p <;> simp [hq]
    have hnext := linkSend_next (s := ackTaken p (setRx [] y.now y)) rfl
    rw [hchoice, hrecs, show (ackTaken p (setRx [] y.now y)).now = s.at t from hnow] at hnext
    refine ⟨_, hrow, by simp [State.raisedNone, ackTaken, seen_parts hy], linkNext_drivePins hnext,
      frame_of_pedals hy (hmoved.trans (linkSend_pedalsMoved _)) ?_⟩
    rw [linkSend_pedals]
    simp [ackTaken, hpedals, hnow]
  case tie =>
    refine choosePedal_iff.mpr ⟨h .damper, fun q n hn => .inr ?_⟩
    rw [h q] at hn
    cases hn
    exact ⟨rfl, by cases q <;> decide⟩
end

section
/-! PROOF. Moves sent again and pedals that fault (R142, R143, R144). -/

namespace Sys2Proof.Machine

/-- The record of a pedal in FAULT (R143). -/
def brokenPedal (r : PedalRec) : PedalRec := { r with motion := .fault, travel := none, waiting := none }

/-- A fault of pedal p up to the link's choice (R143). -/
def pedalBroken (p : Pedal) (cause : Word) (s : State) : State :=
  let s1 := abandonFrame p (updPedal p brokenPedal s)
  raise .pedalFault (toWord (pedalNumber p)) cause (if p = .sostenuto then setSost [] s1 else s1)

theorem faultPedal_eq (p : Pedal) (cause : Word) (s : State) :
    faultPedal p cause s = linkSend (pedalBroken p cause s) := rfl

theorem abandonFrame_pedals (p : Pedal) (s : State) : (abandonFrame p s).pedals =
    { s.pedals with link := if s.pedals.inFlight p then .idle else s.pedals.link } := by
  unfold abandonFrame
  split <;> rfl

theorem pedalBroken_pedals (p : Pedal) (cause : Word) (s : State) :
    (pedalBroken p cause s).pedals = { s.pedals with
      recs := s.pedals.recs.set (pedalIndex p) (brokenPedal (s.pedals.pedal p))
      link := if s.pedals.inFlight p then .idle else s.pedals.link
      sost := if p = .sostenuto then [] else s.pedals.sost } := by
  have hunit : (abandonFrame p (updPedal p brokenPedal s)).pedals = { s.pedals with
      recs := s.pedals.recs.set (pedalIndex p) (brokenPedal (s.pedals.pedal p))
      link := if s.pedals.inFlight p then .idle else s.pedals.link } := by
    rw [abandonFrame_pedals]
    rfl
  simp only [pedalBroken, raise_keeps]
  split
  · rw [setSost_pedals, hunit]
  · rw [hunit]

theorem pedalBroken_pedalsMoved (p : Pedal) (cause : Word) (s : State) : PedalsMoved s (pedalBroken p cause s) := by
  have habandoned : PedalsMoved s (abandonFrame p (updPedal p brokenPedal s)) := by
    unfold abandonFrame
    split
    · exact (updPedal_pedalsMoved _ _ s).trans (setLink_pedalsMoved _ _)
    · exact updPedal_pedalsMoved _ _ s
  unfold pedalBroken
  dsimp only
  split
  · exact (habandoned.trans (setSost_pedalsMoved _ _)).trans (raise_pedalsMoved _ _ _ _)
  · exact habandoned.trans (raise_pedalsMoved _ _ _ _)

theorem pedalBroken_raised {s y : State} (p : Pedal) (cause : Word) (hr : y.report = s.report)
    (hl : y.track.lastTag = s.track.lastTag) :
    s.raisedExactly (pedalBroken p cause y) [(.pedalFault, toWord (pedalNumber p), cause)] := by
  unfold pedalBroken
  apply raise_raisedExactly <;> split <;> simp [hr, hl]

/-- The records of a pedal unit in which pedal p alone was set. -/
theorem pedal_set (u : PedalUnit) (p q : Pedal) (r : PedalRec) :
    ({ u with recs := u.recs.set (pedalIndex p) r } : PedalUnit).pedal q = if q = p then r else u.pedal q := by
  unfold PedalUnit.pedal
  rw [Bank.get_set]
  by_cases h : q = p
  · rw [if_pos h, if_pos (by rw [h])]
  · rw [if_neg h, if_neg (fun e => h (pedalIndex_inj e))]

/-- The frame in flight sent again with the newest depth (R142). -/
theorem retransfer_again {s : State} {p : Pedal} {depth : Nat} (h : (s.pedals.pedal p).retries < s.pedals.maxRetries) :
    retransfer { pedal := p, depth := depth } s =
      setLink (.sending { pedal := p
                          depth := match (s.pedals.pedal p).waiting with
                            | none => depth
                            | some m => m.depth } s.now none)
        (updPedal p (fun r => { r with retries := r.retries + 1, waiting := none }) s) := by
  exact if_pos h

theorem retransfer_faults {s : State} {p : Pedal} {depth : Nat} (h : s.pedals.maxRetries ≤ (s.pedals.pedal p).retries) :
    retransfer { pedal := p, depth := depth } s = faultPedal p faultRetries s := by
  unfold retransfer
  rw [if_neg (by simpa using h)]

theorem onReplyTimeoutExpiry_taken {s : State} {f : Frame} {e : Instant} (h : s.pedals.link = .awaiting f e)
    (hle : e ≤ s.now) : onReplyTimeoutExpiry s = retransfer f s := by
  simp [onReplyTimeoutExpiry, h, hle]

theorem onTravelExpiry_taken {s : State} {p : Pedal} {e : Instant} (h : (s.pedals.pedal p).travel = some e)
    (hle : e ≤ s.now) : onTravelExpiry p s = faultPedal p faultTravel s := by
  simp [onTravelExpiry, h, hle]

theorem drivePins_pedals (s : State) : (drivePins s).pedals = s.pedals := rfl

/-- The pedal unit that the receiver leaves when it takes a frame whole (R137). -/
def RxMoved (s y z : State) (t : Instant) (bytes : List Byte) (rxEnd : Instant) : Prop :=
  PedalsMoved y z ∧ z.pedals = { s.pedals with rxBytes := bytes, rxEnd := rxEnd } ∧ z.now = s.at t ∧
    z.report = s.report ∧ z.track.lastTag = s.track.lastTag

end Sys2Proof.Machine

open Sys2Proof Sys2Proof.Machine

/-- Settles O47: `retransfer_again`, or `faultPedal` with the link's choice after it (`linkSend_next`). -/
theorem failedMovesAreRetransferredOrFault : Obligations.failed_moves_are_retransferred_or_fault := by
  intro t p s hr faulted
  obtain ⟨y, hy, hrow, -⟩ := partRow_seen (t := t) hr
  have hpedals : y.pedals = s.pedals := by simp [seen_parts hy]
  have hnow : y.now = s.at t := by simp [seen_parts hy]
  have hreport : y.report = s.report := by simp [seen_parts hy]
  have hlast : y.track.lastTag = s.track.lastTag := by simp [seen_parts hy]
  have hsame : RxMoved s y y t s.pedals.rxBytes s.pedals.rxEnd := ⟨.refl y, hpedals, hnow, hreport, hlast⟩
  have hreceived : RxMoved s y (setRx [] y.now y) t [] (s.at t) :=
    ⟨setRx_pedalsMoved _ _ _, by simp [hpedals, hnow], hnow, hreport, hlast⟩
  have hfaulted : ∀ cause z bytes rxEnd, RxMoved s y z t bytes rxEnd →
      faulted cause (drivePins (faultPedal p cause z)) ∧
        drivePins (faultPedal p cause z) = { s.withBook (drivePins (faultPedal p cause z)) with
          pedals := { s.pedals with
            recs := (drivePins (faultPedal p cause z)).pedals.recs
            link := (drivePins (faultPedal p cause z)).pedals.link
            sost := (drivePins (faultPedal p cause z)).pedals.sost, rxBytes := bytes, rxEnd := rxEnd } } := by
    intro cause z bytes rxEnd ⟨hmoved, hunit, hznow, hzreport, hzlast⟩
    have hbroken := pedalBroken_pedals p cause z
    have hbmoved := hmoved.trans (pedalBroken_pedalsMoved p cause z)
    have hbraised := pedalBroken_raised p cause hzreport hzlast
    have hbnow : (pedalBroken p cause z).now = s.at t := by
      rw [(pedalBroken_pedalsMoved p cause z).2]
      exact hznow
    rw [hunit] at hbroken
    rw [faultPedal_eq]
    generalize pedalBroken p cause z = x at hbroken hbmoved hbraised hbnow
    have hrecs : x.pedals.pedal = fun q =>
        if q = p then { s.pedals.pedal p with motion := .fault, travel := none, waiting := none }
        else s.pedals.pedal q := by
      funext q
      have hset := pedal_set s.pedals p q (brokenPedal (s.pedals.pedal p))
      rw [hbroken]
      exact hset
    have hlink : x.pedals.link = if s.pedals.inFlight p then .idle else s.pedals.link := by
      rw [hbroken]
      rfl
    have hchoice : choosePedal x.pedals = choosePedal { s.pedals with
        recs := s.pedals.recs.set (pedalIndex p)
          { s.pedals.pedal p with motion := .fault, travel := none, waiting := none } } :=
      choosePedal_congr fun q => by rw [pedal_set, hrecs]
    have hsost : (linkSend x).pedals.sost = if p = .sostenuto then [] else s.pedals.sost := by
      rw [linkSend_pedals, hbroken]
    refine ⟨⟨fun hfree => ?_, fun hbusy hother => ?_, fun hp => hsost.trans (if_pos hp), fun hp => hsost.trans (if_neg hp),
      ?_⟩, frame_of_pedals hy (hbmoved.trans (linkSend_pedalsMoved x)) ?_⟩
    · have hidle : x.pedals.link = .idle := by
        rw [hlink]
        rcases hfree with h | h <;> simp [h]
      have hnext := linkSend_next hidle
      rw [hchoice, hrecs, hbnow] at hnext
      exact linkNext_drivePins hnext
    · have hkept : x.pedals.link = s.pedals.link := by rw [hlink, hother, if_neg (by decide)]
      rw [linkSend_busy (by rw [hkept]; exact hbusy)]
      exact ⟨hkept, fun q => congrFun hrecs q⟩
    · exact Eq.trans (show (drivePins (linkSend x)).report = (linkSend x).report from rfl)
        (Eq.trans (by simp) hbraised)
    · have hparts := linkSend_pedals x
      rw [hbroken] at hparts
      rw [drivePins_pedals, hsost]
      exact hparts
  refine ⟨fun depth e hrx hl => ?_, fun e htravel hle => ?travel⟩
  · intro again sameRest received
    have hagain : ∀ z bytes rxEnd, RxMoved s y z t bytes rxEnd → (s.pedals.pedal p).retries < s.pedals.maxRetries →
        again (drivePins (retransfer { pedal := p, depth := depth.toNat } z)) ∧
          drivePins (retransfer { pedal := p, depth := depth.toNat } z) =
            { s.withBook (drivePins (retransfer { pedal := p, depth := depth.toNat } z)) with
              pedals := { s.pedals with
                recs := (drivePins (retransfer { pedal := p, depth := depth.toNat } z)).pedals.recs
                link := (drivePins (retransfer { pedal := p, depth := depth.toNat } z)).pedals.link
                sost := (drivePins (retransfer { pedal := p, depth := depth.toNat } z)).pedals.sost
                rxBytes := bytes, rxEnd := rxEnd } } := by
      intro z bytes rxEnd ⟨hmoved, hunit, hznow, hzreport, hzlast⟩ hretries
      rw [retransfer_again (s := z) (by rw [hunit]; exact hretries)]
      have hkey : ∀ q, z.pedals.pedal q = s.pedals.pedal q := by
        intro q
        rw [hunit]
        rfl
      refine ⟨⟨?_, ?_, fun q hq => ?_, ?_, ?_⟩, frame_of_pedals hy
        (hmoved.trans ((updPedal_pedalsMoved _ _ _).trans (setLink_pedalsMoved _ _))) ?_⟩
      · rw [drivePins_pedals, setLink_pedals, hznow, hkey] <;> rfl
      · rw [drivePins_pedals, setLink_pedal, updPedal_pedal, if_pos rfl, hkey]
      · rw [drivePins_pedals, setLink_pedal, updPedal_pedal, if_neg hq, hkey]
      · simp [hunit]
      · simp [State.raisedNone, hzreport]
      · simp [hunit]
    have hnak := hrow (onNak p depth)
    rw [onNak_whole (by rw [hpedals]; exact hrx), takeNak_matches (e := e) (by simpa [hpedals] using hl)] at hnak
    have htimeout : e ≤ s.at t → partRow t onReplyTimeoutExpiry s =
        .next (drivePins (retransfer { pedal := p, depth := depth.toNat } y)) := by
      intro hle
      rw [hrow onReplyTimeoutExpiry,
        onReplyTimeoutExpiry_taken (s := y) (by rw [hpedals]; exact hl) (by rwa [hnow])]
    refine ⟨fun hretries => ⟨?_, fun hle => ?_⟩, fun hretries => ⟨?_, fun hle => ?_⟩⟩
    · exact ⟨_, hnak, hagain _ _ _ hreceived hretries⟩
    · exact ⟨_, htimeout hle, hagain _ _ _ hsame hretries⟩
    · have hrx := hnak
      rw [retransfer_faults (s := setRx [] y.now y) (by rw [setRx_pedal, setRx_pedals, hpedals]; exact hretries)] at hrx
      exact ⟨_, hrx, hfaulted faultRetries _ _ _ hreceived⟩
    · have hout := htimeout hle
      rw [retransfer_faults (s := y) (by simpa [hpedals] using hretries)] at hout
      exact ⟨_, hout, hfaulted faultRetries _ _ _ hsame⟩
  case travel =>
    have hrow := hrow (onTravelExpiry p)
    rw [onTravelExpiry_taken (by rwa [hpedals]) (by rwa [hnow])] at hrow
    exact ⟨_, hrow, hfaulted faultTravel y _ _ hsame⟩
end

section
/-! PROOF. Arrivals and the receiver (R137, R140, R144, R145). -/

namespace Sys2Proof.Machine

/-- An arrival of pedal p up to the return to 0: its record, and the sostenuto set for pedal 3 (R144, R145). -/
def arrivalTaken (p : Pedal) (depth : Nat) (s : State) : State :=
  let s1 := updPedal p (fun r => { r with depth := depth, motion := .atRest, travel := none }) s
  if p = .sostenuto then sostenutoArrives depth s1 else s1

theorem takeArrived_live {s : State} {p : Pedal} {depth : Nat} (h : (s.pedals.pedal p).motion ≠ .fault) :
    takeArrived p depth s = returnToZero p depth (arrivalTaken p depth s) := if_neg h

theorem takeArrived_fault {s : State} {p : Pedal} {depth : Nat} (h : (s.pedals.pedal p).motion = .fault) :
    takeArrived p depth s = s := if_pos h

/-- The sostenuto set after an arrival of pedal p at a depth (R145). -/
def State.sostAfter (s : State) (p : Pedal) (depth : Nat) : List Key :=
  if p = .sostenuto then (if 8 ≤ depth then s.soundingKeys else []) else s.pedals.sost

theorem sostenutoArrives_pedals (depth : Nat) (s : State) : (sostenutoArrives depth s).pedals =
    { s.pedals with sost := if 8 ≤ depth then s.soundingKeys else [] } := by
  unfold sostenutoArrives
  split
  · simp
  · split
    · rename_i h
      rw [← h]
    · simp

theorem sostenutoArrives_pedalsMoved (depth : Nat) (s : State) : PedalsMoved s (sostenutoArrives depth s) := by
  unfold sostenutoArrives
  split
  · exact (setSost_pedalsMoved _ s).trans (raise_pedalsMoved _ _ _ _)
  · split
    · exact .refl s
    · exact (setSost_pedalsMoved _ s).trans (raise_pedalsMoved _ _ _ _)

theorem arrivalTaken_pedals (p : Pedal) (depth : Nat) (s : State) : (arrivalTaken p depth s).pedals =
    { s.pedals with
      recs := s.pedals.recs.set (pedalIndex p) { s.pedals.pedal p with depth := depth, motion := .atRest, travel := none }
      sost := s.sostAfter p depth } := by
  unfold arrivalTaken State.sostAfter
  by_cases hp : p = .sostenuto
  · simp only [hp, if_true]
    rw [sostenutoArrives_pedals]
    rfl
  · simp only [hp, if_false]
    rfl

theorem arrivalTaken_pedalsMoved (p : Pedal) (depth : Nat) (s : State) : PedalsMoved s (arrivalTaken p depth s) := by
  unfold arrivalTaken
  dsimp only
  split
  · exact (updPedal_pedalsMoved _ _ s).trans (sostenutoArrives_pedalsMoved _ _)
  · exact updPedal_pedalsMoved _ _ s

theorem arrivalTaken_other {p : Pedal} (hp : p ≠ .sostenuto) (depth : Nat) (s : State) :
    (arrivalTaken p depth s).report = s.report := by
  simp [arrivalTaken, hp]

theorem arrivalTaken_captures {s y : State} {depth : Nat} (h : 8 ≤ depth) (hr : y.report = s.report)
    (hl : y.track.lastTag = s.track.lastTag) :
    s.raisedExactly (arrivalTaken .sostenuto depth y) [(.sostenutoCapture, 3, toWord y.soundingKeys.length)] := by
  have hcapture : arrivalTaken .sostenuto depth y = raise .sostenutoCapture 3 (toWord y.soundingKeys.length)
      (setSost y.soundingKeys (updPedal .sostenuto (fun r => { r with depth := depth, motion := .atRest, travel := none }) y)) :=
    if_pos h
  rw [hcapture]
  exact raise_raisedExactly (by simpa using hr) (by simpa using hl)

theorem arrivalTaken_clears {s y : State} {depth : Nat} (h : ¬ 8 ≤ depth) (hs : y.pedals.sost ≠ [])
    (hr : y.report = s.report) (hl : y.track.lastTag = s.track.lastTag) :
    s.raisedExactly (arrivalTaken .sostenuto depth y) [(.sostenutoClear, 3, toWord y.pedals.sost.length)] := by
  have hclear : arrivalTaken .sostenuto depth y = raise .sostenutoClear 3 (toWord y.pedals.sost.length)
      (setSost [] (updPedal .sostenuto (fun r => { r with depth := depth, motion := .atRest, travel := none }) y)) :=
    (if_neg h).trans (if_neg hs)
  rw [hclear]
  exact raise_raisedExactly (by simpa using hr) (by simpa using hl)

theorem arrivalTaken_empty {s : State} {depth : Nat} (h : ¬ 8 ≤ depth) (hs : s.pedals.sost = []) :
    (arrivalTaken .sostenuto depth s).report = s.report := by
  have hnone : arrivalTaken .sostenuto depth s =
      updPedal .sostenuto (fun r => { r with depth := depth, motion := .atRest, travel := none }) s :=
    (if_neg h).trans (if_pos hs)
  rw [hnone]
  simp

/-! ## The return to 0 (R144) -/

theorem returnToZero_stays {s : State} {p : Pedal} {depth : Nat}
    (h : s.awaitsSettling = false ∨ depth = 0 ∨ (s.pedals.pedal p).waiting ≠ none ∨ s.pedals.inFlight p = true) :
    returnToZero p depth s = s := by
  refine if_neg ?_
  rintro ⟨h1, h2, h3, h4⟩
  rcases h with h | h | h | h <;> simp_all

theorem returnToZero_moves {s : State} {p : Pedal} {depth : Nat} (h1 : s.awaitsSettling = true) (h2 : depth ≠ 0)
    (h3 : (s.pedals.pedal p).waiting = none) (h4 : s.pedals.inFlight p = false)
    (h5 : (s.pedals.pedal p).motion ≠ .fault) :
    returnToZero p depth s =
      linkSend (updPedal p (fun r => { r with waiting := some { depth := 0, due := s.now } }) s) := by
  have hput : putMove p { depth := 0, due := s.now } s =
      updPedal p (fun r => { r with waiting := some { depth := 0, due := s.now } }) s := if_neg h5
  rw [returnToZero, if_pos ⟨h1, h2, h3, by simp [h4]⟩, handMove, hput]

/-- The only move waiting is sent by an idle link. -/
theorem linkSend_only {s : State} {p : Pedal} {m : Move} (hl : s.pedals.link = .idle)
    (hp : (s.pedals.pedal p).waiting = some m) (hother : ∀ q, q ≠ p → (s.pedals.pedal q).waiting = none) :
    linkSend s = setLink (.sending { pedal := p, depth := m.depth } s.now none)
      (updPedal p (fun r => { r with waiting := none }) s) := by
  have hchosen : choosePedal s.pedals = some (p, m) := by
    refine choosePedal_iff.mpr ⟨hp, fun q n hq => ?_⟩
    by_cases hqp : q = p
    · subst hqp
      rw [hp] at hq
      cases hq
      exact .inr ⟨rfl, Nat.le_refl _⟩
    · rw [hother q hqp] at hq
      cases hq
  rcases linkSend_cases s with ⟨-, h | h⟩ | ⟨q, n, -, h, hsend⟩
  · exact absurd hl h
  · simp [hchosen] at h
  · rw [hchosen] at h
    cases h
    exact hsend

/-! ## The receiver (R137) -/

theorem assemble_short {bytes : List Byte} (h : bytes.length < 3) (s : State) :
    assemble bytes s = setRx bytes s.now s := by
  unfold assemble
  split
  · simp at h
  · rfl

theorem receiveByte_joins {s : State} (b : Byte) (hlen : s.pedals.rxBytes.length < 2)
    (hgap : s.now - 40 ≤ s.pedals.rxEnd + 200) : receiveByte b s = setRx (s.pedals.rxBytes ++ [b]) s.now s := by
  have hkept : s.partialAt (s.now - Config.byteTime) = s.pedals.rxBytes := if_neg (Nat.not_lt.mpr hgap)
  rw [receiveByte, hkept, assemble_short (by simp; omega)]

theorem receiveByte_afterGap {s : State} (b : Byte) (hgap : s.pedals.rxEnd + 200 < s.now - 40) :
    receiveByte b s = setRx [b] s.now s := by
  have hdropped : s.partialAt (s.now - Config.byteTime) = [] := if_pos hgap
  rw [receiveByte, hdropped, List.nil_append, assemble_short (by simp)]

/-- With no partial frame held, three bytes make a frame. -/
theorem onInvalidFrame_whole {s : State} (h : s.pedals.rxBytes = []) (b1 b2 b3 : Byte) :
    onInvalidFrame b1 b2 b3 s = takeFrame b1 b2 b3 (setRx [] s.now s) := by
  have hnone : ∀ start, s.partialAt start = [] := by simp [State.partialAt, h]
  rw [onInvalidFrame, receiveFrame, hnone]
  rfl

/-- A frame that fails a test is ignored. -/
theorem takeFrame_none {b1 b2 b3 : Byte} (h : parseFrame b1 b2 b3 = none) (s : State) : takeFrame b1 b2 b3 s = s := by
  simp [takeFrame, h]

theorem takeFrame_ack {b1 b2 b3 : Byte} {p : Pedal} {depth : Nat} (h : parseFrame b1 b2 b3 = some (.ack, p, depth))
    (s : State) : takeFrame b1 b2 b3 s = takeAck p depth s := by simp [takeFrame, h]

theorem takeFrame_nak {b1 b2 b3 : Byte} {p : Pedal} {depth : Nat} (h : parseFrame b1 b2 b3 = some (.nak, p, depth))
    (s : State) : takeFrame b1 b2 b3 s = takeNak p depth s := by simp [takeFrame, h]

end Sys2Proof.Machine

open Sys2Proof Sys2Proof.Machine

/-- Settles O49: each row leaves bytes and the end of the last byte alone changed; a reply that matches nothing is ignored. -/
theorem receiverAssemblesDropsAndIgnores : Obligations.receiver_assembles_drops_and_ignores := by
  intro t s hr received
  obtain ⟨y, hy, hrow, -⟩ := partRow_seen (t := t) hr
  have hpedals : y.pedals = s.pedals := by simp [seen_parts hy]
  have hnow : y.now = s.at t := by simp [seen_parts hy]
  have hreceived : ∀ i e bytes, exec i s = partRow t e s → e y = setRx bytes y.now y →
      ∃ s', exec i s = .next s' ∧ received s' bytes := by
    intro i e bytes hi he
    have hrow := hrow e
    rw [he] at hrow
    exact ⟨_, hi.trans hrow, frame_of_pedals hy (setRx_pedalsMoved _ _ _) (by simp [hpedals, hnow])⟩
  refine ⟨fun b hlen hgap => ?joins, fun b hgap => ?after, ?framing, fun hgap => ?gap,
    fun hrx => ⟨fun b1 b2 b3 hparse => ?invalid, fun p depth hlink => ?unmatched⟩⟩
  case joins =>
    have hjoin := receiveByte_joins (s := y) b (by rwa [hpedals]) (by rw [hpedals, hnow]; exact hgap)
    rw [← hpedals]
    exact hreceived _ (onPlrxByteReceived b) _ rfl hjoin
  case after =>
    exact hreceived _ (onPlrxByteReceived b) _ rfl (receiveByte_afterGap b (by rw [hpedals, hnow]; exact hgap))
  case framing => exact hreceived _ onPlrxFramingError _ rfl rfl
  case gap =>
    have hrow := hrow onPlrxGapTimeout
    have hdrop : onPlrxGapTimeout y = setRx [] y.pedals.rxEnd y := if_pos (by rw [hpedals, hnow]; exact hgap)
    rw [hdrop] at hrow
    exact ⟨_, hrow, frame_of_pedals hy (setRx_pedalsMoved _ _ _) (by simp [hpedals])⟩
  case invalid =>
    exact hreceived _ (onInvalidFrame b1 b2 b3) _ rfl
      ((onInvalidFrame_whole (by rw [hpedals]; exact hrx) b1 b2 b3).trans (takeFrame_none hparse _))
  case unmatched =>
    have hrx : y.pedals.rxBytes = [] := by rw [hpedals]; exact hrx
    have hack := takeAck_ignored (s := setRx [] y.now y) (p := p) (depth := depth.toNat) (by simpa [hpedals] using hlink)
    have hnak := takeNak_ignored (s := setRx [] y.now y) (p := p) (depth := depth.toNat) (by simpa [hpedals] using hlink)
    refine ⟨hreceived _ (onAck p depth) _ rfl ((onAck_whole hrx p depth).trans hack),
      hreceived _ (onNak p depth) _ rfl ((onNak_whole hrx p depth).trans hnak), fun b1 b2 b3 hparse => ?_⟩
    refine hreceived _ (onInvalidFrame b1 b2 b3) _ rfl ((onInvalidFrame_whole hrx b1 b2 b3).trans ?_)
    rcases hparse with h | h
    · exact (takeFrame_ack h _).trans hack
    · exact (takeFrame_nak h _).trans hnak
end

section
/-! PROOF. Obligation: an arrival sets the depth and the sostenuto set (R144, R145). -/

namespace Sys2Proof.Machine

theorem soundingKeys_congr {s y : State} (h : ∀ k, y.key k = s.key k) : y.soundingKeys = s.soundingKeys := by
  simp [State.soundingKeys, h]

theorem mem_soundingKeys {s : State} {k : Key} :
    k ∈ s.soundingKeys ↔ (s.key k).state = .firing ∨ (s.key k).state = .holding := by
  simp [State.soundingKeys]

theorem awaitsSettling_congr {s y : State} (hc : y.clock.state = s.clock.state) (hd : y.clock.drained = s.clock.drained)
    (hl : y.shadow.loaded = s.shadow.loaded) : y.awaitsSettling = s.awaitsSettling := by
  simp [State.awaitsSettling, hc, hd, hl]

/-- A second change of the pedal whose record was set. -/
theorem updPedal_of_set {s : State} {u : PedalUnit} {p : Pedal} {r : PedalRec}
    (h : s.pedals.recs = u.recs.set (pedalIndex p) r) (f : PedalRec → PedalRec) :
    (updPedal p f s).pedals = { s.pedals with recs := u.recs.set (pedalIndex p) (f r) } := by
  rw [updPedal_pedals, Bank.modify_eq, h, Bank.get_set_same, Bank.set_set]

end Sys2Proof.Machine

open Sys2Proof Sys2Proof.Machine

/-- Settles O48: the arrival is taken (`arrivalTaken`), and then no move to 0 follows (`returnToZero_stays`) or one does
(`returnToZero_moves`), which waits or is sent at once (`linkSend_only`). -/
theorem arrivalSetsDepthAndSostenutoSet : Obligations.arrival_sets_depth_and_sostenuto_set := by
  intro t p depth s hr hrx
  obtain ⟨y, hy, hrow, -⟩ := partRow_seen (t := t) hr
  have hrow := hrow (onArrived p depth)
  have hpedals : y.pedals = s.pedals := by simp [seen_parts hy]
  have hnow : y.now = s.at t := by simp [seen_parts hy]
  rw [onArrived_whole (by rw [hpedals]; exact hrx)] at hrow
  have hmotion : ((setRx [] y.now y).pedals.pedal p).motion = (s.pedals.pedal p).motion := by
    rw [setRx_pedal, hpedals]
  refine ⟨fun hlive => ?live, fun hfault => ?fault⟩
  case fault =>
    rw [takeArrived_fault (hmotion.trans hfault)] at hrow
    exact ⟨_, hrow, by simp [State.raisedNone, seen_parts hy],
      frame_of_pedals hy (setRx_pedalsMoved _ _ _) (by simp [hpedals, hnow])⟩
  case live =>
    intro arrived waiting
    rw [takeArrived_live (by rw [hmotion]; exact hlive)] at hrow
    have hz : ∀ k, (setRx [] y.now y).key k = s.key k :=
      fun k => Eq.trans (show _ = y.key k from rfl) (by simp [seen_parts hy])
    have hzpedals : (setRx [] y.now y).pedals = { s.pedals with rxBytes := [], rxEnd := s.at t } := by simp [hpedals, hnow]
    have hreport : (setRx [] y.now y).report = s.report := by simp [seen_parts hy]
    have hlast : (setRx [] y.now y).track.lastTag = s.track.lastTag := by simp [seen_parts hy]
    have hsettling : (arrivalTaken p depth.toNat (setRx [] y.now y)).awaitsSettling = s.awaitsSettling := by
      have hframe := (arrivalTaken_pedalsMoved p depth.toNat (setRx [] y.now y)).2
      refine awaitsSettling_congr ?_ ?_ ?_ <;> rw [hframe] <;> simp [seen_clock hy, seen_shadow hy]
    have hxnow : (arrivalTaken p depth.toNat (setRx [] y.now y)).now = s.at t := by
      rw [(arrivalTaken_pedalsMoved p depth.toNat (setRx [] y.now y)).2]
      exact hnow
    have hmoved := (setRx_pedalsMoved [] y.now y).trans (arrivalTaken_pedalsMoved p depth.toNat (setRx [] y.now y))
    have hunit := arrivalTaken_pedals p depth.toNat (setRx [] y.now y)
    have hother := fun hp => (arrivalTaken_other (p := p) hp depth.toNat (setRx [] y.now y)).trans hreport
    have hsounding := soundingKeys_congr hz
    have hcaptures : p = .sostenuto → 8 ≤ depth.toNat → s.raisedExactly (arrivalTaken p depth.toNat (setRx [] y.now y))
        [(.sostenutoCapture, 3, toWord s.soundingKeys.length)] := by
      rintro rfl h
      rw [← hsounding]
      exact arrivalTaken_captures h hreport hlast
    have hclears : p = .sostenuto → ¬ 8 ≤ depth.toNat → s.pedals.sost ≠ [] →
        s.raisedExactly (arrivalTaken p depth.toNat (setRx [] y.now y))
          [(.sostenutoClear, 3, toWord s.pedals.sost.length)] := by
      rintro rfl h hs
      have hclear := arrivalTaken_clears (y := setRx [] y.now y) h (by rwa [hzpedals]) hreport hlast
      rwa [hzpedals] at hclear
    have hempty : p = .sostenuto → ¬ 8 ≤ depth.toNat → s.pedals.sost = [] →
        (arrivalTaken p depth.toNat (setRx [] y.now y)).report = s.report := by
      rintro rfl h hs
      exact (arrivalTaken_empty (s := setRx [] y.now y) h (by rwa [hzpedals])).trans hreport
    have hsost : (setRx [] y.now y).sostAfter p depth.toNat = s.sostAfter p depth.toNat := by
      simp only [State.sostAfter, hsounding, hzpedals]
    rw [hsost, hzpedals] at hunit
    generalize arrivalTaken p depth.toNat (setRx [] y.now y) = x at *
    have hdone : ∀ (z : State) (waiting : Option Move) (link : Link), PedalsMoved x z → z.report = x.report →
        z.pedals = { x.pedals with
          recs := s.pedals.recs.set (pedalIndex p)
            { s.pedals.pedal p with depth := depth.toNat, motion := .atRest, travel := none, waiting := waiting }
          link := link } →
        exec (.arrived t p depth) s = .next (drivePins z) → arrived waiting link := by
      intro z waiting link hzmoved hzreport hzunit hzrow
      have hzsost : (drivePins z).pedals.sost = s.sostAfter p depth.toNat := by
        rw [drivePins_pedals, hzunit, hunit]
      have hzrecs : ∀ q, (drivePins z).pedals.pedal q = if q = p then
          { s.pedals.pedal p with depth := depth.toNat, motion := .atRest, travel := none, waiting := waiting }
          else s.pedals.pedal q := by
        intro q
        rw [← pedal_set s.pedals p q, drivePins_pedals, hzunit]
        rfl
      refine ⟨_, hzrow, by rw [hzrecs, if_pos rfl], fun q hq => by rw [hzrecs, if_neg hq],
        fun hp => ⟨by rw [hzsost, State.sostAfter, if_neg hp], hzreport.trans (hother hp)⟩,
        fun hp h => ⟨fun k => ?_, ?_⟩, fun hp h => ⟨?_, fun hs => hzreport.trans (hclears hp (by omega) hs),
          fun hs => hzreport.trans (hempty hp (by omega) hs)⟩,
        frame_of_pedals hy (hmoved.trans hzmoved) ?_⟩
      · rw [hzsost, State.sostAfter, if_pos hp, if_pos h, mem_soundingKeys]
      · rw [hzsost, State.sostAfter, if_pos hp, if_pos h]
        exact hzreport.trans (hcaptures hp h)
      · rw [hzsost, State.sostAfter, if_pos hp, if_neg (by omega)]
      · rw [hzsost, hzunit, hunit, drivePins_pedals, hzunit]
    have hxrecs : ∀ q, x.pedals.pedal q = if q = p then
        { s.pedals.pedal p with depth := depth.toNat, motion := .atRest, travel := none } else s.pedals.pedal q := by
      intro q
      rw [← pedal_set s.pedals p q, hunit]
      rfl
    have hxp := (hxrecs p).trans (if_pos rfl)
    have hflight : x.pedals.inFlight p = s.pedals.inFlight p := by
      rw [hunit]
      rfl
    have hlink : x.pedals.link = s.pedals.link := by rw [hunit]
    refine ⟨fun h => ?stays, fun h1 h2 h3 h4 => ?moves⟩
    case stays =>
      rw [returnToZero_stays (s := x) (by rw [hsettling, hxp, hflight]; exact h)] at hrow
      exact hdone x waiting s.pedals.link (.refl x) rfl (by rw [hunit]; rfl) hrow
    case moves =>
      rw [returnToZero_moves (s := x) (hsettling.trans h1) h2 (by rw [hxp]; exact h3) (hflight.trans h4)
        (by simp [hxp]), hxnow] at hrow
      have hmove := updPedal_pedal p (fun r => { r with waiting := some { depth := 0, due := s.at t } }) x
      have hmoveUnit : (updPedal p (fun r => { r with waiting := some { depth := 0, due := s.at t } }) x).pedals =
          { x.pedals with
            recs := s.pedals.recs.set (pedalIndex p)
              { s.pedals.pedal p with
                depth := depth.toNat, motion := .atRest, travel := none
                waiting := some { depth := 0, due := s.at t } } } :=
        updPedal_of_set (by rw [hunit]) _
      refine ⟨fun hbusy => ?waits, fun hidle hnone => ?sent⟩
      case waits =>
        rw [linkSend_busy (s := updPedal p _ x) (by simpa [hlink] using hbusy)] at hrow
        refine hdone _ _ _ (updPedal_pedalsMoved _ _ _) (by simp) ?_ hrow
        rw [hmoveUnit, ← hlink]
      case sent =>
        rw [linkSend_only (s := updPedal p _ x) (p := p) (m := { depth := 0, due := s.at t }) (by simpa [hlink] using hidle)
          (by rw [hmove, if_pos rfl]) (fun q hq => by
            rw [hmove, if_neg hq, hxrecs, if_neg hq]
            exact choosePedal_none.mp hnone q)] at hrow
        refine hdone _ _ _ ((updPedal_pedalsMoved _ _ _).trans ((updPedal_pedalsMoved _ _ _).trans (setLink_pedalsMoved _ _)))
          (by simp) ?_ hrow
        rw [setLink_pedals, updPedal_of_set (by rw [hmoveUnit]), hmoveUnit]
        have hznow : (updPedal p (fun r => { r with waiting := some { depth := 0, due := s.at t } }) x).now = s.at t := hxnow
        rw [hznow]
end

section
/-! PROOF. The Report Writer, the Status Writer and the pins (R121, R161, R162, R177 to R183). -/

namespace Sys2Proof.Machine

/-! ## The Report Writer's queue (R179, R180) -/

theorem report_request {s : State} {p : InProgress} {ring : ReportRing} (hp : s.report.current = some p)
    (hc : s.report.copies = some ring) : s.report.request =
      some (.reportWord (ring.base + 8 * s.report.wr + 2 * p.written) (recordWord p.record p.written) true) := by
  simp [Report.request, hp, hc]

theorem isFull_iff {r : Report} {ring : ReportRing} (hc : r.copies = some ring) :
    r.isFull = decide ((r.wr + 1) % ring.size = r.readIndex) := by
  simp [Report.isFull, hc]

/-- At a full ring every queued record is dropped (R180). -/
theorem pump_full {r : Report} (hf : r.isFull = true) (hc : r.current = none) {n : Nat} (hn : r.queue.length = n + 1) :
    r.pump (n + 1) = { r with queue := [], lost := true } := by
  induction n generalizing r with
  | zero =>
    obtain ⟨x, hq⟩ := List.length_eq_one_iff.mp hn
    simp [Report.pump, hc, hq, hf]
  | succ n ih =>
    obtain ⟨x, rest, hq⟩ := List.exists_cons_of_length_eq_add_one hn
    have hrest : rest.length = n + 1 := by simpa [hq] using hn
    rw [Report.pump, hc, hq]
    dsimp only
    rw [if_pos hf]
    have htail := ih (r := { r with queue := rest, lost := true }) hf hc hrest
    simpa only [hc] using htail

theorem takeUp_full {r : Report} {x : Record} {rest : List Record} (hf : r.isFull = true) (hc : r.current = none)
    (hq : r.queue = x :: rest) : r.takeUp = { r with queue := [], lost := true } := by
  have hlen : r.queue.length = rest.length + 1 := by simp [hq]
  rw [Report.takeUp, hlen]
  exact pump_full hf hc hlen

theorem takeUp_next {r : Report} {x : Record} {rest : List Record} (hf : r.isFull = false) (hc : r.current = none)
    (hq : r.queue = x :: rest) : r.takeUp = { r with queue := rest, current := some { record := x, written := 0 } } := by
  simp [Report.takeUp, Report.pump, hc, hq, hf]

/-- Room in the ring, by the indices within it (R179). -/
theorem hasRoom_iff {r : Report} {ring : ReportRing} (hc : r.copies = some ring) (hr : r.readIndex < ring.size) :
    r.hasRoom = true ↔ (r.wr + ring.size - r.readIndex) % ring.size + r.queue.length +
      (if r.current.isSome then 1 else 0) < ring.size - 1 := by
  simp only [Report.hasRoom, Report.unread, hc, Nat.mod_eq_of_lt hr, decide_eq_true_eq]
  omega

theorem accept_dormant {r : Report} (h : r.active = false) (x : Record) : r.accept x = r := by
  simp [Report.accept, h]

theorem accept_room {r : Report} (h : r.active = true) (hr : r.hasRoom = true) (x : Record) :
    r.accept x = Report.takeUp { r with queue := r.queue ++ [x] } := by simp [Report.accept, h, hr]

theorem accept_lost {r : Report} (h : r.active = true) (hr : r.hasRoom = false) (x : Record) :
    r.accept x = { r with lost := true } := by simp [Report.accept, h, hr]

theorem mem_joinList (off : Nat) (l : List Nat) : off ∈ joinList off l := by
  unfold joinList
  split
  · rename_i h
    simpa using h
  · simp

/-- Reports-lost newly set is told to the Status Writer (R178). -/
theorem raise_tells_lost {s : State} {k : ReportKind} {a d : Word} (h : s.report.lost = false)
    (h' : (raise k a d s).report.lost = true) : offFlags ∈ (raise k a d s).updates := by
  rw [raise_report] at h'
  have hne : decide (s.report.lost ≠ (s.report.accept
      { kind := k, tag := s.track.lastTag, subject := a, detail := d }).lost) = true := by simp [h, h']
  unfold raise setReport
  dsimp only
  rw [hne]
  exact mem_joinList _ _

/-! ## Words of a record written (R180, R178) -/

/-- The memory after a part's word write, with the port free again. -/
def wordWritten (a : Nat) (w : Word) (s : State) : State := partWrite a w (setOwner none s)

@[simp] theorem wordWritten_parts (a : Nat) (w : Word) (s : State) :
    (wordWritten a w s).mem = writeWord s.mem a w ∧ (wordWritten a w s).arb = { s.arb with owner := none } ∧
      (wordWritten a w s).report = s.report ∧ (wordWritten a w s).updates = s.updates := ⟨rfl, rfl, rfl, rfl⟩

theorem recordWordDone_counts {s : State} {p : InProgress} (hp : s.report.current = some p) (h : p.written < 3) :
    recordWordDone s = setReport { s.report with current := some { p with written := p.written + 1 } } s := by
  simp [recordWordDone, hp, h]

theorem recordWordDone_commits {s : State} {p : InProgress} {ring : ReportRing} (hp : s.report.current = some p)
    (hc : s.report.copies = some ring) (h : 3 ≤ p.written) :
    recordWordDone s = setReport (Report.takeUp { s.report with
      classes := s.report.classes.set (Fin.ofNat 256 s.report.wr) (some (kindClass p.record.kind))
      wr := (s.report.wr + 1) % ring.size
      current := none }) s := by
  simp [recordWordDone, hp, Nat.not_lt.mpr h, Report.commit, Report.nextWr, hc]

theorem onReportWordWrite_live {s : State} {a : Nat} {w : Word} (ho : s.arb.owner = some (.reportWord a w true))
    (hw : s.arb.waiting = none) : onReportWordWrite s = recordWordDone (wordWritten a w s) := by
  have hnone : (recordWordDone (wordWritten a w s)).arb.waiting = none := by
    unfold recordWordDone
    (repeat' split) <;> simpa using hw
  simp only [onReportWordWrite, ho, if_true]
  exact serveWaiting_none hnone

theorem onReportWordWrite_dropped {s : State} {a : Nat} {w : Word} (ho : s.arb.owner = some (.reportWord a w false))
    (hw : s.arb.waiting = none) : onReportWordWrite s = wordWritten a w s := by
  simp only [onReportWordWrite, ho]
  exact serveWaiting_none (by simpa using hw)

theorem onStatusWordWrite_eq {s : State} {off : Nat} {w : Word} (ho : s.arb.owner = some (.statusWord off w))
    (hw : s.arb.waiting = none) : onStatusWordWrite s = wordWritten (s.pageBase + off) w s := by
  simp only [onStatusWordWrite, ho]
  exact serveWaiting_none (by simpa using hw)

/-- The frame of a row that wrote a part's word and moved the Report Writer on. -/
theorem frame_of_word {s y x : State} {t : Instant} {mem : Memory} {report : Report} (hy : Seen s t y)
    (hx : x = { y with mem := mem, arb := x.arb, report := report, updates := x.updates })
    (harb : x.arb.waiting = y.arb.waiting) :
    drivePins x = { s.withBook (drivePins x) with mem := mem, report := report } := by
  refine frame_of_row hy ?_
  generalize x.arb = arb, x.updates = updates at hx harb
  subst hx
  apply state_ext
  case clock => apply clock_ext <;> simp [seen_clock hy, seen_owed hy]
  case arb => apply arbiter_ext <;> simp [harb, seen_parts hy]
  case shadow => simpa using seen_shadow_eq hy
  all_goals simp [seen_parts hy]

end Sys2Proof.Machine

open Sys2Proof Sys2Proof.Machine

/-- Settles O51: the word is written and counted or commits its record; the queue by `takeUp_next` and `takeUp_full`; a record
raised by the three cases of `Report.accept`. -/
theorem reportWordsAreWrittenAndCommitted : Obligations.report_words_are_written_and_committed := by
  refine ⟨fun t a w p ring s hr hw hp hc => ⟨report_request hp hc, fun ho h => ?counts, fun ho h => ?commits, fun ho => ?dropped⟩,
    fun r ring hc hnone => ⟨fun hq => takeUp_idle r (.inl hq), fun x rest hq => ⟨fun h => ?_, fun h => ?_⟩⟩,
    fun kind subject detail ring s hc hwr hread => ?raised⟩
  case counts =>
    have hrow := partRow_owned (t := t) (e := onReportWordWrite) hr ho
    have hy := seen_advance s t
    rw [onReportWordWrite_live (a := a) (w := w) (by simpa using ho) (by simpa using hw),
      recordWordDone_counts (p := p) (by simpa using hp) h] at hrow
    exact ⟨_, hrow, by simp, frame_of_word hy (by apply state_ext <;> simp [wordWritten]) (by simp)⟩
  case commits =>
    have hrow := partRow_owned (t := t) (e := onReportWordWrite) hr ho
    have hy := seen_advance s t
    rw [onReportWordWrite_live (a := a) (w := w) (by simpa using ho) (by simpa using hw),
      recordWordDone_commits (p := p) (ring := ring) (by simpa using hp) (by simpa using hc) h] at hrow
    exact ⟨_, hrow, by simp, rfl, frame_of_word hy (by apply state_ext <;> simp [wordWritten]) (by simp)⟩
  case dropped =>
    have hrow := partRow_owned (t := t) (e := onReportWordWrite) hr ho
    have hy := seen_advance s t
    rw [onReportWordWrite_dropped (a := a) (w := w) (by simpa using ho) (by simpa using hw)] at hrow
    refine ⟨_, hrow, by simp, by simp [State.raisedNone], ?_⟩
    exact (frame_of_word hy (mem := writeWord s.mem a w) (report := s.report) (by apply state_ext <;> simp [wordWritten]) (by simp)).trans
      (by apply state_ext <;> simp)
  · exact takeUp_next (by rw [isFull_iff hc]; simpa using h) hnone hq
  · exact takeUp_full (by rw [isFull_iff hc]; simpa using h) hnone hq
  case raised =>
    intro s' x room
    have hroom : s.report.hasRoom = true ↔ room := hasRoom_iff hc hread
    have hreport : s'.report = s.report.accept x := raise_report _ _ _ s
    have hbook : s' = s.withBook s' := by
      apply state_ext
      case report => exact raise_onlyRaised kind subject detail s
      all_goals simp [s']
    refine ⟨hbook, fun h => ?_, fun h hr => ⟨fun hcur => ?_, fun hcur => ?_⟩, fun h hr => ?_⟩
    · rw [hreport, accept_dormant h]
    · rw [hreport, accept_room h (hroom.mpr hr)]
      exact takeUp_idle _ (.inr hcur)
    · rw [hreport, accept_room h (hroom.mpr hr)]
    · have hlost : s'.report = { s.report with lost := true } := by
        rw [hreport, accept_lost h (by simpa using fun hh => hr (hroom.mp hh))]
      exact ⟨hlost, fun hl => raise_tells_lost hl (by rw [hlost])⟩
end

section
/-! PROOF. The Status Writer and the pins (R3, R121, R161, R162, R183). -/

namespace Sys2Proof.Machine

/-- With the port free and no other part request, the first word of the update list is granted (R166, R183). -/
theorem grantPort_status {s : State} {off : Nat} {rest : List Nat} (ho : s.arb.owner = none) (hw : s.arb.waiting = none)
    (h1 : s.ring.request = none) (h2 : s.setupRequest = none) (h3 : s.report.request = none)
    (hu : s.updates = off :: rest) :
    grantPort s = { s with
      arb := { s.arb with owner := some (.statusWord off (s.statusValue off)) }
      updates := rest
      shadow := { s.shadow with result := if off = offResult then none else s.shadow.result } } := by
  simp [grantPort, ho, hw, h1, h2, h3, grantStatus, hu]

theorem statusValue_advance (t : Instant) (s : State) (off : Nat) : (advance t s).statusValue off = s.statusValue off := rfl

theorem setupRequest_advance (t : Instant) (s : State) : (advance t s).setupRequest = s.setupRequest := rfl

theorem onInhNChange_idle {s : State} {b : Bool} (h : s.inh ≠ b) (hi : s.clock.state = .idle) :
    onInhNChange b s = setInhibit b s := by simp [onInhNChange, h, hi]

theorem onInhNChange_reports {s : State} {b : Bool} (h : s.inh ≠ b) (hi : s.clock.state ≠ .idle) :
    onInhNChange b s = raise .inhibit 0 (if b then 1 else 0) (setInhibit b s) := by simp [onInhNChange, h, hi]

theorem passHeldCycles_none {s : State} (hw : s.arb.waiting = none) (hh : s.shadow.held = none) :
    passHeldCycles s = s := by simp [passHeldCycles, hw, hh]

end Sys2Proof.Machine

open Sys2Proof Sys2Proof.Machine

/-- Settles O52: the owner's word is written (`onStatusWordWrite_eq`), granted in the row itself if need be
(`grantPort_status`). -/
theorem statusWordsAreGrantedAndWritten : Obligations.status_words_are_granted_and_written := by
  intro t s hr hw
  refine ⟨fun off w ho => ?owned, fun off rest ho h1 h2 h3 hu => ?granted⟩
  case owned =>
    have hrow := partRow_owned (t := t) (e := onStatusWordWrite) hr ho
    have hy := seen_advance s t
    rw [onStatusWordWrite_eq (off := off) (w := w) (by simpa using ho) (by simpa using hw)] at hrow
    refine ⟨_, hrow, by simp, ?_⟩
    exact (frame_of_word hy (mem := writeWord s.mem (s.pageBase + off) w) (report := s.report)
      (by apply state_ext <;> simp [wordWritten, State.pageBase]) (by simp)).trans (by apply state_ext <;> simp)
  case granted =>
    have hrow := partRow_next (t := t) (e := onStatusWordWrite) hr
    have hy := seen_grant s t
    have hgrant := grantPort_status (s := advance t s) (off := off) (rest := rest) (by simpa using ho) (by simpa using hw)
      (by simpa using h1) h2 (by simpa using h3) hu
    rw [statusValue_advance] at hgrant
    generalize grantPort (advance t s) = y at hrow hy hgrant
    have howner : y.arb.owner = some (.statusWord off (s.statusValue off)) := by rw [hgrant]
    have hupdates : y.updates = rest := by rw [hgrant]
    have hresult : y.shadow.result = if off = 0x004 then none else s.shadow.result := by rw [hgrant]; rfl
    have hbase : y.pageBase = s.pageBase := by rw [hgrant]; rfl
    have hmem : y.mem = s.mem := by rw [hgrant]; rfl
    rw [onStatusWordWrite_eq howner (by simpa [seen_parts hy] using hw), hbase] at hrow
    refine ⟨_, hrow, by simp, by simpa using hupdates, by simpa [wordWritten] using hresult, ?_⟩
    exact (frame_of_word hy (mem := writeWord s.mem (s.pageBase + off) (s.statusValue off)) (report := s.report)
      (by apply state_ext <;> simp [wordWritten, hmem, seen_parts hy]) (by simp)).trans
      (by apply state_ext <;> simp [seen_parts hy])

/-- Settles O53: the change of INH_N by its two cases; the rows of RST_N are the model's reset and release values. -/
theorem pinsInhibitAndReset : Obligations.pins_inhibit_and_reset := by
  intro t s
  refine ⟨fun b hr hne => ?inhibit, fun hr hw hh => ?asserted, fun straps b hr => ?released⟩
  case inhibit =>
    obtain ⟨y, hy, hrow, -⟩ := partRow_seen (t := t) hr
    have hrow := hrow (onInhNChange b)
    have hyinh : y.inh ≠ b := by simpa [seen_parts hy] using hne
    by_cases hi : s.clock.state = .idle
    · rw [onInhNChange_idle hyinh (by simpa [seen_clock hy] using hi)] at hrow
      refine ⟨_, hrow, fun h => absurd hi h, fun _ => by simp [State.raisedNone, seen_parts hy], frame_of_row hy ?_⟩
      apply state_ext
      case clock => apply clock_ext <;> simp [seen_clock hy, seen_owed hy]
      case arb => simpa using seen_arb_eq hy
      case shadow => simpa using seen_shadow_eq hy
      all_goals simp [seen_parts hy]
    · rw [onInhNChange_reports hyinh (by simpa [seen_clock hy] using hi)] at hrow
      refine ⟨_, hrow, fun _ => raised_drivePins (raise_raised (by simp [seen_parts hy]) (by simp [seen_parts hy])),
        fun h => absurd h hi, frame_of_row hy ?_⟩
      apply state_ext
      case clock => apply clock_ext <;> simp [seen_clock hy, seen_owed hy]
      case arb => simpa using seen_arb_eq hy
      case shadow => simpa using seen_shadow_eq hy
      case report => apply report_ext <;> simp [seen_parts hy]
      all_goals simp [seen_parts hy]
  case asserted =>
    have hrow : exec (.rstNAssert t) s = .next (onRstNAssert (advance t s)) := by
      rw [show exec (.rstNAssert t) s = execRstNAssert t s from rfl, execRstNAssert, if_neg (by simp [hr])]
    rw [hrow, onRstNAssert, passHeldCycles_none (by simpa using hw) (by simpa using hh)]
    rfl
  case released =>
    have hrow : exec (.rstNRelease t straps b) s = .next ((advance t s).released straps b) := by
      rw [show exec (.rstNRelease t straps b) s = execRstNRelease t straps b s from rfl, execRstNRelease, if_pos hr]
    rw [hrow]
    rfl
end

section
/-! PROOF. Stage 1 of the decode: tracking (R25 to R27). -/

namespace Sys2Proof.Machine

theorem onDecodeStage_taken {s : State} {d : Decode} (hd : s.track.decode = some d) (h : d.stage ≤ 8) :
    onDecodeStage none s = nextStage (stageWork d s) := by
  simp [onDecodeStage, hd, h, decodeOn]

theorem nextStage_track {s : State} {d : Decode} (hd : s.track.decode = some d) :
    (nextStage s).track = { s.track with decode := some { d with stage := d.stage + 1, reached := 0 } } := by
  simp [nextStage, hd]

/-- The next stage raises nothing. -/
theorem raised_nextStage {s x : State} {k : ReportKind} {a d : Word} (h : s.raised x k a d) :
    s.raised (nextStage x) k a d := raised_congr h rfl

theorem stageWork_tracking {d : Decode} (h : d.stage = 1) (s : State) : stageWork d s = stageTracking s := if_pos h

theorem stageTracking_edge {s : State} {col : Nat} (h : s.ring.edge = some col) :
    stageTracking s = trackEdge ((col : Int) - (s.track.edgeNominal : Int)) s := by simp [stageTracking, h]

theorem stageTracking_noEdge {s : State} (h : s.ring.edge = none) : stageTracking s = trackNoEdge s := by
  simp [stageTracking, h]

/-- A row that moved the Track Reader and the outstanding reports on. -/
theorem frame_of_track {s y x : State} {t : Instant} {track : Track} (hy : Seen s t y)
    (hreport : OnlyRaised y.report x.report)
    (hx : x = { y with track := track, report := x.report, updates := x.updates }) :
    drivePins x = { s.withBook (drivePins x) with track := track } := by
  refine frame_of_row hy ?_
  generalize x.report = report, x.updates = updates at hx hreport
  subst hx
  apply state_ext
  case clock => apply clock_ext <;> simp [seen_clock hy, seen_owed hy]
  case arb => simpa using seen_arb_eq hy
  case shadow => simpa using seen_shadow_eq hy
  case report => simpa [OnlyRaised, seen_parts hy] using hreport
  all_goals simp [seen_parts hy]

/-! ## A line with an edge (R25, R26) -/

theorem trackEdge_atShift {s : State} {off : Int} (h : off = s.track.shift) :
    trackEdge off s = updTrack (fun t => { t with noEdge := 0, candidate := none, candidateCount := 0 }) s := by
  simp [trackEdge, nextCandidate, h]

/-- The count of the candidate `off` with this line. -/
def candidateCountAt (t : Track) (off : Int) : Nat := if t.candidate = some off then t.candidateCount + 1 else 1

theorem nextCandidate_away {t : Track} {off : Int} (h : off ≠ t.shift) :
    nextCandidate t off = (some off, candidateCountAt t off) := by
  unfold nextCandidate candidateCountAt
  rw [if_neg h]
  split <;> rfl

theorem trackEdge_counts {s : State} {off : Int} (h : off ≠ s.track.shift)
    (hn : candidateCountAt s.track off < s.track.trackPersist) :
    trackEdge off s = updTrack (fun t =>
      { t with noEdge := 0, candidate := some off, candidateCount := candidateCountAt s.track off }) s := by
  simp [trackEdge, nextCandidate_away h, Nat.not_le.mpr hn]

theorem trackEdge_acts {s : State} {off : Int} (h : off ≠ s.track.shift)
    (hn : s.track.trackPersist ≤ candidateCountAt s.track off) :
    trackEdge off s = actOnCandidate off (updTrack (fun t =>
      { t with noEdge := 0, candidate := some off, candidateCount := candidateCountAt s.track off }) s) := by
  simp [trackEdge, nextCandidate_away h, h, hn]

theorem actOnCandidate_shifts {s : State} {off : Int} (h1 : -8 ≤ off) (h2 : off ≤ 8) :
    actOnCandidate off s = raise .shift (signedWord off) (signedWord s.track.shift)
      (setShift off (updTrack (fun t => { t with candidate := none, candidateCount := 0 }) s)) := by
  simp [actOnCandidate, h1, h2]

theorem actOnCandidate_holds {s : State} {off : Int} (h : off < -8 ∨ 8 < off) :
    actOnCandidate off s = updTrack (fun t => { t with pendingHold := some .tracking })
      (updTrack (fun t => { t with candidate := none, candidateCount := 0 }) s) := by
  rw [actOnCandidate, if_neg (by omega)]

/-! ## A line without an edge (R27) -/

theorem trackNoEdge_counts {s : State} (h : s.track.noEdge + 1 < s.track.paperLimit) :
    trackNoEdge s =
      updTrack (fun t => { t with candidate := none, candidateCount := 0, noEdge := t.noEdge + 1 }) s := by
  simp [trackNoEdge, Nat.not_le.mpr h]

theorem trackNoEdge_holds {s : State} (h : s.track.paperLimit ≤ s.track.noEdge + 1) :
    trackNoEdge s =
      updTrack (fun t => { t with candidate := none, candidateCount := 0, noEdge := 0, pendingHold := some .paper }) s := by
  simp [trackNoEdge, h]

/-- What stage 1 may have made of the Track Reader, and nothing else but a report. -/
def Tracked (y z : State) (candidate : Option Int) (count noEdge : Nat) (shift : Int) (hold : Option TrackHold) : Prop :=
  OnlyRaised y.report z.report ∧
    z = { y with
      track := { y.track with
        candidate := candidate, candidateCount := count, noEdge := noEdge, shift := shift, pendingHold := hold }
      report := z.report, updates := z.updates }

/-- The row of stage 1 after its work. -/
theorem Tracked.row {s y z : State} {t : Instant} {d : Decode} {candidate : Option Int} {count noEdge : Nat} {shift : Int}
    {hold : Option TrackHold} (hy : Seen s t y) (hd : s.track.decode = some d)
    (hz : Tracked y z candidate count noEdge shift hold) :
    drivePins (nextStage z) = { s.withBook (drivePins (nextStage z)) with
      track := { s.track with
        candidate := candidate, candidateCount := count, noEdge := noEdge, shift := shift, pendingHold := hold
        decode := some { d with stage := d.stage + 1, reached := 0 } } } := by
  obtain ⟨hreport, hframe⟩ := hz
  have htrack : y.track = s.track := by simp [seen_parts hy]
  have hz' : z.track.decode = some d := by
    rw [hframe, htrack]
    exact hd
  have hnext := nextStage_track hz'
  refine frame_of_track hy (by simpa [nextStage] using hreport) ?_
  generalize z.report = report, z.updates = updates at hframe hreport
  subst hframe
  apply state_ext
  case track => simpa [htrack] using hnext
  all_goals simp [nextStage]

end Sys2Proof.Machine

open Sys2Proof Sys2Proof.Machine

/-- Settles O30: the cases of `trackEdge`, `actOnCandidate` and `trackNoEdge`, and then the next stage (`Tracked.row`). -/
theorem stageOneFollowsTheEdge : Obligations.stage_one_follows_the_edge := by
  intro t d s hr hd h1 ends
  obtain ⟨y, hy, hrow, -⟩ := partRow_seen (t := t) hr
  have hrow := hrow (onDecodeStage none)
  have htrack : y.track = s.track := by simp [seen_parts hy]
  have hring : y.ring = s.ring := by simp [seen_parts hy]
  rw [onDecodeStage_taken (by rw [htrack]; exact hd) (by omega), stageWork_tracking h1] at hrow
  have hends : ∀ z candidate count noEdge shift hold, Tracked y z candidate count noEdge shift hold →
      ends (drivePins (nextStage z)) candidate count noEdge shift hold := by
    intro z candidate count noEdge shift hold hz
    have hframe := hz.row hy hd
    rwa [h1] at hframe
  have hquiet : ∀ z : State, z.report = y.report → s.raisedNone (drivePins (nextStage z)) := by
    intro z hz
    simp [State.raisedNone, nextStage, hz, seen_parts hy]
  have hstays : ∀ (z : State) (e : Track → Track) candidate count noEdge hold, z = updTrack e y →
      { e s.track with lastTag := s.track.lastTag, shift := s.track.shift } = { s.track with
        candidate := candidate, candidateCount := count, noEdge := noEdge, pendingHold := hold } →
      s.raisedNone (drivePins (nextStage z)) ∧
        ends (drivePins (nextStage z)) candidate count noEdge s.track.shift hold := by
    intro z e candidate count noEdge hold hz he
    subst hz
    refine ⟨hquiet _ (by simp), hends _ _ _ _ _ _ ⟨.of_eq (by simp), ?_⟩⟩
    apply state_ext
    case track => simpa [htrack] using he
    all_goals simp
  refine ⟨?edge, fun hcol => ?noEdge⟩
  case edge =>
    intro col hcol off n
    rw [stageTracking_edge (by rw [hring]; exact hcol), htrack] at hrow
    have hn : candidateCountAt y.track off = n := by rw [htrack]; rfl
    have hoff : ∀ h : off ≠ s.track.shift, off ≠ y.track.shift := by rw [htrack]; exact id
    refine ⟨_, hrow, fun h => ?_, fun h hlt => ?_, fun h hle hlo hhi => ?_, fun h hle hout => ?_⟩
    · exact hstays _ _ _ _ _ _ (trackEdge_atShift (by rw [htrack]; exact h)) rfl
    · rw [trackEdge_counts (s := y) (hoff h) (by rw [hn, htrack]; exact hlt), hn]
      exact hstays _ _ _ _ _ _ rfl rfl
    · have hshift : (updTrack (fun t =>
          { t with noEdge := 0, candidate := some off, candidateCount := candidateCountAt y.track off }) y).track.shift =
            s.track.shift := by simp [htrack]
      rw [trackEdge_acts (s := y) (hoff h) (by rw [hn, htrack]; exact hle), actOnCandidate_shifts hlo hhi, hshift]
      refine ⟨?_, hends _ _ _ _ _ _ ⟨by apply report_ext <;> simp, by apply state_ext <;> simp [htrack]⟩⟩
      exact raised_drivePins (raised_nextStage (raise_raised (by simp [seen_parts hy]) (by simp [seen_parts hy])))
    · rw [trackEdge_acts (s := y) (hoff h) (by rw [hn, htrack]; exact hle), actOnCandidate_holds hout, hn]
      exact hstays _ (fun t => { t with
        noEdge := 0, candidate := none, candidateCount := 0, pendingHold := some .tracking }) _ _ _ _ rfl rfl
  case noEdge =>
    rw [stageTracking_noEdge (by rw [hring]; exact hcol)] at hrow
    refine ⟨_, hrow, ?_, fun h => ?_, fun h => ?_⟩
    · rcases Nat.lt_or_ge (s.track.noEdge + 1) s.track.paperLimit with h | h
      · rw [trackNoEdge_counts (s := y) (by rw [htrack]; exact h)]
        exact hquiet _ (by simp)
      · rw [trackNoEdge_holds (s := y) (by rw [htrack]; exact h)]
        exact hquiet _ (by simp)
    · exact (hstays _ _ _ _ _ _ (trackNoEdge_counts (by rw [htrack]; exact h)) rfl).2
    · exact (hstays _ _ _ _ _ _ (trackNoEdge_holds (by rw [htrack]; exact h)) rfl).2
end

section
/-! PROOF. The words of a fetch and its end (R14 to R18, R20, R48). -/

namespace Sys2Proof.Machine

theorem getD_words_left {ws : List Word} {n : Nat} (more : List Word) (h : n < ws.length) :
    (ws ++ more).getD n 0 = ws.getD n 0 := by
  rw [List.getD_eq_getElem?_getD, List.getD_eq_getElem?_getD, List.getElem?_append_left h]

theorem getD_words_right {ws : List Word} {n : Nat} (more : List Word) (h : ws.length ≤ n) :
    (ws ++ more).getD n 0 = more.getD (n - ws.length) 0 := by
  rw [List.getD_eq_getElem?_getD, List.getD_eq_getElem?_getD, List.getElem?_append_right h]

/-! ## A word of the fetch (R14, R20) -/

theorem onLineFetchWord_dropped {s : State} {slot : Fin 128} {a : Nat} (ho : s.arb.owner = some (.lineFetch slot a false))
    (hw : s.arb.waiting = none) : onLineFetchWord s = setOwner none s := by
  simp only [onLineFetchWord, ho]
  exact serveWaiting_none (by simpa using hw)

/-- A live word is taken with the port free again; no cycle waits. -/
theorem onLineFetchWord_live {s x : State} {slot : Fin 128} {a : Nat} (ho : s.arb.owner = some (.lineFetch slot a true))
    (hx : fetchWord (readWord s.mem a) (setOwner none s) = x) (hw : x.arb.waiting = none) : onLineFetchWord s = x := by
  simp only [onLineFetchWord, ho, if_true, hx]
  exact serveWaiting_none hw

/-- The state in which a word has joined the line buffer. -/
def wordFetched (f : Fetch) (w : Word) (s : State) : State :=
  setFetch (some { f with count := f.count + 1 }) (s.ring.buffer ++ [w]) s

theorem fetchWord_counts {s : State} {f : Fetch} (hf : s.ring.fetch = some f) (h : f.count < 17) (w : Word) :
    fetchWord w s = wordFetched f w s := by
  have hne : f.count + 1 ≠ 18 := by omega
  simp [fetchWord, hf, hne, wordFetched]

theorem fetchWord_ends {s : State} {f : Fetch} (hf : s.ring.fetch = some f) (h : f.count = 17) (w : Word) :
    fetchWord w s = fetchEnds f.levelFrozen (wordFetched f w s) := by
  simp [fetchWord, hf, h, wordFetched]

/-! ## The end of a fetch (R15, R16, R18) -/

theorem lineSum_append {buffer : List Word} (h : buffer.length = 17) (w : Word) :
    lineSum (buffer ++ [w]) = buffer.foldl (· + ·) 0 := by
  rw [lineSum, List.take_append_of_le_length (by omega), List.take_of_length_le (by omega)]

/-- The state at the end of a fetch whose words are `words`. -/
def fetchOver (words : List Word) (s : State) : State := setFetch none words s

theorem fetchEnds_check {s : State} {frozen : Bool} (h : lineSum s.ring.buffer ≠ s.ring.lineWord 17) :
    fetchEnds frozen s = discardLine frozen .check (lineSum s.ring.buffer) (fetchOver s.ring.buffer s) := if_pos h

theorem fetchEnds_sequence {s : State} {frozen : Bool} (h : lineSum s.ring.buffer = s.ring.lineWord 17)
    (ht : s.ring.lineTag ≠ s.clock.expected) :
    fetchEnds frozen s = discardLine frozen .sequence s.ring.lineTag (fetchOver s.ring.buffer s) :=
  (if_neg (not_not_intro h)).trans (if_pos ht)

theorem fetchEnds_accepts {s : State} {frozen : Bool} (h : lineSum s.ring.buffer = s.ring.lineWord 17)
    (ht : s.ring.lineTag = s.clock.expected) :
    fetchEnds frozen s = acceptLine frozen (fetchOver s.ring.buffer s) :=
  (if_neg (not_not_intro h)).trans (if_neg (not_not_intro ht))

/-- In PLAYING with the new head ready, the line discarded gives its due to the next one (R48). -/
theorem discardLine_next {s : State} {frozen : Bool} {due : Instant} (hp : s.clock.state = .playing)
    (hd : s.clock.lineDue = some due) (hr : (freeHead s).ring.headReady = true) (k : ReportKind) (detail : Word) :
    discardLine frozen k detail s = startFetch frozen due (raise k s.headWord detail (freeHead s)) := by
  have hready : (raise k s.headWord detail (freeHead s)).ring.headReady = true := by simpa using hr
  have hstate : (raise k s.headWord detail (freeHead s)).clock.state = .playing := by simpa using hp
  have hdue : (raise k s.headWord detail (freeHead s)).clock.lineDue = some due := by simpa using hd
  rw [discardLine, reofferDue, hstate, hdue]
  exact if_pos hready

theorem beginDecode_track (through : Nat) (s : State) : (beginDecode through s).track =
    { s.track with decode := some { frozenThrough := through }, lastTag := s.ring.lineTag } := rfl

theorem beginDecode_expr (through : Nat) (s : State) : (beginDecode through s).expr =
    { s.expr with sample := some (takeSample s.shadow) } := rfl

theorem raise_ring (k : ReportKind) (a d : Word) (s : State) : (raise k a d s).ring = s.ring := by simp

theorem beforeChannel_idle {s : State} {ch : Channel} (h : s.cueNat ch 0 ≠ 1) (armed : Bool) (tag : Word) :
    beforeChannel ch armed tag s = s := if_neg fun hall => h hall.2.1

/-- With no channel of kind LINE an accepted line is decoded (R18, R152). -/
theorem acceptLine_plain {s : State} {frozen : Bool} (ha : s.cueNat .a 0 ≠ 1) (hb : s.cueNat .b 0 ≠ 1) :
    acceptLine frozen s = beginDecode (if frozen then Config.questionStage else 0) (setExempt false s) := by
  have hbefore : beforeTest s.ring.lineTag (setExempt false s) = setExempt false s := by
    rw [beforeTest, beforeChannel_idle (ch := .a) (s := setExempt false s) ha, beforeChannel_idle (ch := .b) (s := setExempt false s) hb]
  rw [acceptLine, hbefore]
  rfl

/-! ## The state a live word starts from -/

/-- The state a fetch row's word starts from: time has gone on and the port is free. -/
def portFreed (t : Instant) (s : State) : State := setOwner none (advance t s)

theorem portFreed_seen (t : Instant) (s : State) : Seen s t (portFreed t s) := by
  apply state_ext
  case clock => apply clock_ext <;> simp [portFreed, State.withBook]
  case arb => apply arbiter_ext <;> simp [portFreed, State.withBook]
  case shadow => apply shadow_ext <;> simp [portFreed, State.withBook]
  all_goals simp [portFreed, State.withBook, State.at]

@[simp] theorem portFreed_owner (t : Instant) (s : State) : (portFreed t s).arb.owner = none := rfl

/-- The row of a live word. -/
theorem partRow_fetchWord {s x : State} {t : Instant} {slot : Fin 128} {a : Nat} (hr : s.rst = false)
    (hw : s.arb.waiting = none) (ho : s.arb.owner = some (.lineFetch slot a true))
    (hx : fetchWord (readWord s.mem a) (portFreed t s) = x) (harb : x.arb.waiting = s.arb.waiting) :
    partRow t onLineFetchWord s = .next (drivePins x) := by
  rw [partRow_owned hr ho, onLineFetchWord_live (s := advance t s) (x := x) (by simpa using ho) hx (harb.trans hw)]

end Sys2Proof.Machine

open Sys2Proof Sys2Proof.Machine

/-- Settles O29: a dropped word frees the port; a live one joins the buffer; the last ends the fetch, by the three cases of
`fetchEnds`. -/
theorem fetchedLineIsDiscardedOrAccepted : Obligations.fetched_line_is_discarded_or_accepted := by
  intro t slot a s hr hw
  have hy := portFreed_seen t s
  have hring : (portFreed t s).ring = s.ring := rfl
  refine ⟨fun ho => ?dropped, fun f ho hf h => ?counts, ?ends⟩
  case dropped =>
    have hrow := partRow_owned (t := t) (e := onLineFetchWord) hr ho
    rw [onLineFetchWord_dropped (s := advance t s) (by simpa using ho) (by simpa using hw)] at hrow
    exact ⟨_, hrow, rfl, frame_of_seen hy⟩
  case counts =>
    have hrow := partRow_fetchWord (t := t) hr hw ho (fetchWord_counts (s := portFreed t s) hf h _) rfl
    refine ⟨_, hrow, by simp [wordFetched], frame_of_row hy ?_⟩
    apply state_ext
    case clock => apply clock_ext <;> simp [wordFetched, seen_clock hy, seen_owed hy]
    case arb => simpa [wordFetched] using seen_arb_eq hy
    case shadow => simpa [wordFetched] using seen_shadow_eq hy
    all_goals simp [wordFetched, seen_parts hy]
  case ends =>
    intro f due ho hf hcount hlen hp hdue sum tag next discarded
    have hends := fetchWord_ends (s := portFreed t s) (f := f) hf hcount (readWord s.mem a)
    have hbuffer : (wordFetched f (readWord s.mem a) (portFreed t s)).ring.buffer = s.ring.buffer ++ [readWord s.mem a] :=
      rfl
    have hsum : lineSum (wordFetched f (readWord s.mem a) (portFreed t s)).ring.buffer = sum := lineSum_append hlen _
    have hcheck : (wordFetched f (readWord s.mem a) (portFreed t s)).ring.lineWord 17 = readWord s.mem a := by
      rw [Ring.lineWord, hbuffer, getD_words_right _ (by omega), hlen]
      rfl
    have htag : (wordFetched f (readWord s.mem a) (portFreed t s)).ring.lineTag = tag := by
      rw [Ring.lineTag, Ring.lineWord, hbuffer, getD_words_left _ (by omega)]
    generalize hz : wordFetched f (readWord s.mem a) (portFreed t s) = z at hends hbuffer hsum hcheck htag
    have hover : fetchOver z.ring.buffer z =
        setFetch none (s.ring.buffer ++ [readWord s.mem a]) (portFreed t s) := by
      rw [hbuffer, ← hz]
      rfl
    have hexpected : z.clock.expected = s.clock.expected := by
      rw [← hz]
      exact (seen_clock hy).2.2.1
    have hdiscard : ∀ k detail, (s.ring.slots.get next).state = .ready → next ≠ s.ring.head →
        fetchEnds f.levelFrozen z = discardLine f.levelFrozen k detail (fetchOver z.ring.buffer z) →
        ∃ s', exec (.lineFetchWord t) s = .next s' ∧ s.raised s' k (toWord s.ring.head.val) detail ∧ discarded s' := by
      intro k detail hready hne heq
      have hfree := Bank.get_set_other s.ring.slots s.ring.head next {} hne
      have hfreed : (freeHead (setFetch none (s.ring.buffer ++ [readWord s.mem a]) (portFreed t s))).ring = { s.ring with
          slots := s.ring.slots.set s.ring.head {}, head := next, fetch := none, buffer := [] } := rfl
      rw [heq, hover, discardLine_next (due := due) (by simpa [seen_clock hy] using hp) (by simpa [seen_clock hy] using hdue)
        (by rw [hfreed]; simp [Ring.headReady, Ring.headSlot, hfree, hready])] at hends
      have hrow := partRow_fetchWord (t := t) hr hw ho hends (by simp [portFreed])
      have hhead : (setFetch none (s.ring.buffer ++ [readWord s.mem a]) (portFreed t s)).headWord =
          toWord s.ring.head.val := rfl
      rw [hhead] at hrow
      refine ⟨_, hrow, raised_drivePins (raised_congr (x := raise k (toWord s.ring.head.val) detail
        (freeHead (setFetch none (s.ring.buffer ++ [readWord s.mem a]) (portFreed t s)))) (raise_raised rfl rfl) rfl),
        frame_of_row hy ?_⟩
      apply state_ext
      case clock => apply clock_ext <;> simp [startFetch_clock, seen_clock hy, seen_owed hy]
      case ring =>
        rw [startFetch_ring, raise_ring, hfreed]
        simp [Ring.headSlot, hfree]
      case arb => simpa using seen_arb_eq hy
      case shadow => simpa using seen_shadow_eq hy
      case report => apply report_ext <;> simp [seen_parts hy]
      all_goals simp [seen_parts hy]
    refine ⟨fun hne hready hnext => ?check, fun heq hne hready hnext => ?sequence, fun heq htagEq ha hb => ?accepted⟩
    case check =>
      have hcase := fetchEnds_check (s := z) (frozen := f.levelFrozen) (by rw [hsum, hcheck]; exact hne)
      rw [hsum] at hcase
      exact hdiscard .check sum hready hnext hcase
    case sequence =>
      have hcase := fetchEnds_sequence (s := z) (frozen := f.levelFrozen) (by rw [hsum, hcheck]; exact heq)
        (by rw [htag, hexpected]; exact hne)
      rw [htag] at hcase
      exact hdiscard .sequence tag hready hnext hcase
    case accepted =>
      rw [fetchEnds_accepts (s := z) (by rw [hsum, hcheck]; exact heq) (by rw [htag, hexpected]; exact htagEq), hover,
        acceptLine_plain (s := setFetch none _ (portFreed t s)) ha hb] at hends
      have hrow := partRow_fetchWord (t := t) hr hw ho hends (by simp [portFreed])
      refine ⟨_, hrow, by simp [State.raisedNone, beginDecode, portFreed], frame_of_row hy ?_⟩
      have hlineTag : (setExempt false (setFetch none (s.ring.buffer ++ [readWord s.mem a]) (portFreed t s))).ring.lineTag =
          tag := getD_words_left _ (by omega)
      have hsample : takeSample (setExempt false (setFetch none (s.ring.buffer ++ [readWord s.mem a])
          (portFreed t s))).shadow = takeSample s.shadow := rfl
      apply state_ext
      case clock => apply clock_ext <;> simp [beginDecode, seen_clock hy, seen_owed hy]
      case track =>
        rw [beginDecode_track, hlineTag]
        rfl
      case expr =>
        rw [beginDecode_expr, hsample]
        rfl
      case arb => simpa [beginDecode] using seen_arb_eq hy
      case shadow => simpa [beginDecode] using seen_shadow_eq hy
      all_goals simp [beginDecode, seen_parts hy]
end

section
/-! PROOF. A match of a cue channel (R155), and the BEFORE hold (R152, R156). -/

namespace Sys2Proof.Machine

/-! ## A match (R155, R157) -/

/-- The state after a match's flag and report, before its hold. -/
def matchNoted (ch : Channel) (detail : Word) (s : State) : State :=
  raise .matched (channelWord ch) detail (flagMatch ch s)

theorem cueMatch_notes {s : State} {ch : Channel} (h : s.actionHolds ch = false) (ev : CueEvent) (detail : Word) :
    cueMatch ch ev detail s = matchNoted ch detail s := if_neg (by simp [h])

theorem cueMatch_holds {s : State} {ch : Channel} (h : s.actionHolds ch = true) (ev : CueEvent) (detail : Word) :
    cueMatch ch ev detail s = cueHold ev (cueCause ch) (matchNoted ch detail s) := if_pos h

/-- The cue flags after a match (R155, R157). -/
def Cue.matched (k : Cue) (ch : Channel) (sequential : Bool) : Cue :=
  match ch with
  | .a => { k with flagA := true, bArmed := k.bArmed || sequential }
  | .b => { k with flagB := true, bArmed := false }

theorem flagMatch_cue (ch : Channel) (s : State) : (flagMatch ch s).cue = s.cue.matched ch s.shadow.sequential := by
  cases ch <;> rfl

theorem matchNoted_cue (ch : Channel) (detail : Word) (s : State) :
    (matchNoted ch detail s).cue = s.cue.matched ch s.shadow.sequential := by
  simp [matchNoted, ← flagMatch_cue]

@[simp] theorem matchNoted_keeps (ch : Channel) (detail : Word) (s : State) :
    (matchNoted ch detail s).now = s.now ∧ (matchNoted ch detail s).pending = s.pending ∧
      (matchNoted ch detail s).rst = s.rst ∧ (matchNoted ch detail s).inh = s.inh ∧
      (matchNoted ch detail s).ntc = s.ntc ∧ (matchNoted ch detail s).pwait = s.pwait ∧
      (matchNoted ch detail s).spb = s.spb ∧ (matchNoted ch detail s).pd = s.pd ∧
      (matchNoted ch detail s).kdNext = s.kdNext ∧ (matchNoted ch detail s).mem = s.mem ∧
      (matchNoted ch detail s).arb = s.arb ∧ (matchNoted ch detail s).ring = s.ring ∧
      (matchNoted ch detail s).track = s.track ∧ (matchNoted ch detail s).clock = s.clock ∧
      (matchNoted ch detail s).expr = s.expr ∧ (matchNoted ch detail s).sched = s.sched ∧
      (matchNoted ch detail s).fire = s.fire ∧ (matchNoted ch detail s).keys = s.keys ∧
      (matchNoted ch detail s).heat = s.heat ∧ (matchNoted ch detail s).pedals = s.pedals ∧
      (matchNoted ch detail s).shadow = s.shadow := by simp [matchNoted]

theorem matchNoted_onlyRaised (ch : Channel) (detail : Word) (s : State) :
    OnlyRaised s.report (matchNoted ch detail s).report := by
  have hraised := raise_onlyRaised .matched (channelWord ch) detail (flagMatch ch s)
  simpa [matchNoted] using hraised

theorem matchNoted_raised {s y : State} (ch : Channel) (detail : Word) (hr : y.report = s.report)
    (hl : y.track.lastTag = s.track.lastTag) :
    s.raised (matchNoted ch detail y) .matched (channelWord ch) detail :=
  raise_raised (by simpa using hr) (by simpa using hl)

/-- Entry to HELD adds its report behind what is outstanding. -/
theorem enterHeld_grows (c : Cause) (s : State) :
    ∃ rest, (enterHeld c s).outstanding = s.outstanding ++ rest := by
  obtain ⟨rest, h⟩ := raise_outstanding_grows .held 0 (causeWord c) (setHeld c s)
  exact ⟨rest, h.trans (by simp [outstanding_eq, setHeld])⟩

/-! ## The BEFORE hold (R152, R156) -/

theorem beforeChannel_matches {s : State} {ch : Channel} {armed : Bool} {tag : Word} (hp : s.takesPart ch armed = true)
    (h0 : s.cueNat ch 0 = 1) (h2 : s.cueNat ch 2 = 0) (ha : agrees tag.toNat (s.cueNat ch 3) (s.cueNat ch 4) = true) :
    beforeChannel ch armed tag s = cueMatch ch .before tag s := if_pos ⟨hp, h0, h2, ha⟩

/-- The BEFORE hold in PLAYING: HELD at once, the line exempt (R155, R156). -/
theorem cueHold_before {s : State} (h : s.clock.state = .playing) (c : Cause) :
    cueHold .before c s = setExempt true (enterHeld (s.clock.pendingHold.getD c) s) := if_pos h

/-- The last word of a fetch whose check and tag agree: the line is accepted (R15, R16, R18). -/
theorem fetchWord_accepts {s : State} {f : Fetch} {w : Word} (hf : s.ring.fetch = some f) (hc : f.count = 17)
    (hlen : s.ring.buffer.length = 17) (hsum : s.ring.buffer.foldl (· + ·) 0 = w)
    (htag : s.ring.buffer.getD 0 0 = s.clock.expected) :
    fetchWord w s = acceptLine f.levelFrozen (setFetch none (s.ring.buffer ++ [w]) s) := by
  have hsum' : lineSum (wordFetched f w s).ring.buffer = w := (lineSum_append hlen w).trans hsum
  have hcheck : (wordFetched f w s).ring.lineWord 17 = w := by
    rw [Ring.lineWord, show (wordFetched f w s).ring.buffer = s.ring.buffer ++ [w] from rfl,
      getD_words_right _ (by omega), hlen]
    rfl
  have htag' : (wordFetched f w s).ring.lineTag = s.clock.expected := by
    rw [Ring.lineTag, Ring.lineWord, show (wordFetched f w s).ring.buffer = s.ring.buffer ++ [w] from rfl,
      getD_words_left _ (by omega), htag]
  rw [fetchWord_ends hf hc, fetchEnds_accepts (hsum'.trans hcheck.symm) htag']
  rfl

/-- A line whose BEFORE test leaves it exempt is not decoded (R156). -/
theorem acceptLine_held {s x : State} {frozen : Bool} (hx : beforeTest s.ring.lineTag (setExempt false s) = x)
    (he : x.cue.exempt = true) : acceptLine frozen s = x := by
  rw [acceptLine, hx]
  exact if_pos he

/-- A state that holds by channel A's BEFORE test and has no second LINE channel. -/
theorem beforeTest_holds {s : State} {tag : Word} (hp : s.clock.state = .playing) (hq : s.shadow.sequential = false)
    (hf : s.cue.flagA = false) (h0 : s.cueNat .a 0 = 1) (h1 : s.cueNat .a 1 = 1) (h2 : s.cueNat .a 2 = 0)
    (hb : s.cueNat .b 0 ≠ 1) (ha : agrees tag.toNat (s.cueNat .a 3) (s.cueNat .a 4) = true) :
    beforeTest tag s = setExempt true (enterHeld (s.clock.pendingHold.getD .cueA) (matchNoted .a tag s)) := by
  have hpart : s.takesPart .a s.cue.bArmed = true := by simp [State.takesPart, State.watching, hp, Cue.flag, hf]
  have hholds : s.actionHolds .a = true := by simp [State.actionHolds, h1, hq]
  have hfirst : beforeChannel .a s.cue.bArmed tag s =
      setExempt true (enterHeld (s.clock.pendingHold.getD .cueA) (matchNoted .a tag s)) := by
    rw [beforeChannel_matches hpart h0 h2 ha, cueMatch_holds hholds, cueHold_before (by simpa using hp)]
    simp [cueCause]
  have hshadow : (setExempt true (enterHeld (s.clock.pendingHold.getD .cueA) (matchNoted .a tag s))).shadow = s.shadow := by
    simp
  rw [beforeTest, hfirst]
  refine beforeChannel_idle ?_ _ _
  rw [State.cueNat, hshadow]
  exact hb

end Sys2Proof.Machine

open Sys2Proof Sys2Proof.Machine

/-- Settles O14: the fetch ends with the line accepted, and `beforeTest_holds`. -/
theorem beforeHoldKeepsTheLine : Obligations.before_hold_keeps_the_line := by
  intro t slot a f s hr hw ho hf hcount hlen hp hsum htag hq hflag h0 h1 h2 hb hagree
  have hy := portFreed_seen t s
  have haccept : fetchWord (readWord s.mem a) (portFreed t s) = acceptLine f.levelFrozen
      (setFetch none (s.ring.buffer ++ [readWord s.mem a]) (portFreed t s)) :=
    fetchWord_accepts (s := portFreed t s) hf hcount hlen hsum htag
  have hlineTag : (setFetch none (s.ring.buffer ++ [readWord s.mem a]) (portFreed t s)).ring.lineTag =
      s.clock.expected := by
    rw [Ring.lineTag, Ring.lineWord]
    exact (getD_words_left _ (by omega)).trans htag
  have hsequential : (portFreed t s).shadow.sequential = false := hq
  have hkindB : s.cueNat .b 0 ≠ 1 := by simp [hb]
  have hbefore := beforeTest_holds (s := setExempt false (setFetch none (s.ring.buffer ++ [readWord s.mem a])
    (portFreed t s))) (tag := s.clock.expected) hp hq hflag h0 h1 h2 hkindB hagree
  rw [← hlineTag] at hbefore
  rw [acceptLine_held (s := setFetch none _ _) hbefore rfl, hlineTag] at haccept
  have hrow := partRow_fetchWord (t := t) hr hw ho haccept (by simp [portFreed])
  refine ⟨_, hrow, ?raised, frame_of_row hy ?_⟩
  case raised =>
    exact raised_then (matchNoted_raised .a s.clock.expected rfl rfl) (enterHeld_grows _ _)
  apply state_ext
  case clock => apply clock_ext <;> simp [enterHeld_clock, seen_clock hy]
  case arb => simpa using seen_arb_eq hy
  case shadow => simpa using seen_shadow_eq hy
  case cue => simp [matchNoted_cue, Cue.matched, seen_parts hy, hsequential]
  case report =>
    have honly := (matchNoted_onlyRaised .a s.clock.expected
      (setExempt false (setFetch none (s.ring.buffer ++ [readWord s.mem a]) (portFreed t s)))).trans
      (enterHeld_onlyRaised ((portFreed t s).clock.pendingHold.getD .cueA) _)
    simpa [OnlyRaised, seen_parts hy] using honly
  all_goals simp [seen_parts hy]
end

section
/-! PROOF. The BUS test (R154): a cycle shown to the channel of KIND BUS, its match, and its hold (R155, R52). -/

namespace Sys2Proof.Machine

/-! ## The memory and PD, which the Cue Unit does not touch -/

/-- A state with another memory and another word on PD. -/
def withPort (m : Memory) (d : Word) (s : State) : State := { s with mem := m, pd := d }

theorem passWrite_withPort (c : ProcCycle) (s : State) :
    passWrite c s = withPort (writeLanes s.mem c.addr c.lanes c.data) s.pd s := rfl

theorem setPd_withPort (w : Word) (s : State) : setPd w s = withPort s.mem w s := rfl

theorem matchNoted_withPort (m : Memory) (d : Word) (ch : Channel) (detail : Word) (s : State) :
    matchNoted ch detail (withPort m d s) = withPort m d (matchNoted ch detail s) := by
  cases ch <;> rfl

theorem requestHold_withPort (m : Memory) (d : Word) (c : Cause) (s : State) :
    requestHold c (withPort m d s) = withPort m d (requestHold c s) := by
  unfold requestHold
  rw [show (withPort m d s).clock = s.clock from rfl]
  (repeat' split) <;> rfl

theorem cueMatch_bus_withPort (m : Memory) (d : Word) (ch : Channel) (detail : Word) (s : State) :
    cueMatch ch .bus detail (withPort m d s) = withPort m d (cueMatch ch .bus detail s) := by
  have hsame : (withPort m d s).actionHolds ch = s.actionHolds ch := rfl
  cases h : s.actionHolds ch with
  | false => rw [cueMatch_notes (hsame.trans h), cueMatch_notes h, matchNoted_withPort]
  | true =>
    rw [cueMatch_holds (hsame.trans h), cueMatch_holds h, matchNoted_withPort]
    exact requestHold_withPort m d _ _

/-- The condition under which a channel matches a cycle (R151, R154). -/
def State.busMatches (s : State) (ch : Channel) (armed isWrite : Bool) (addr : Nat) (data : Word) : Prop :=
  s.takesPart ch armed = true ∧ s.cueNat ch 0 = 2 ∧ cycleKindOk (s.cueNat ch 6) isWrite = true ∧
    agrees addr (s.cueAddr ch 7) (s.cueAddr ch 9) = true ∧ agrees data.toNat (s.cueNat ch 11) (s.cueNat ch 12) = true

theorem busChannel_matches {s : State} {ch : Channel} {armed w : Bool} {a : Nat} {d : Word}
    (h : s.busMatches ch armed w a d) : busChannel ch armed w a d s = cueMatch ch .bus (toWord a) s := if_pos h

theorem busChannel_passes {s : State} {ch : Channel} {armed w : Bool} {a : Nat} {d : Word}
    (h : ¬ s.busMatches ch armed w a d) : busChannel ch armed w a d s = s := if_neg h

theorem busChannel_withPort (m : Memory) (d : Word) (ch : Channel) (armed w : Bool) (a : Nat) (dt : Word) (s : State) :
    busChannel ch armed w a dt (withPort m d s) = withPort m d (busChannel ch armed w a dt s) := by
  have hsame : (withPort m d s).busMatches ch armed w a dt = s.busMatches ch armed w a dt := rfl
  by_cases h : s.busMatches ch armed w a dt
  · rw [busChannel_matches h, busChannel_matches (s := withPort m d s) h, cueMatch_bus_withPort]
  · rw [busChannel_passes h, busChannel_passes (s := withPort m d s) h]

theorem busTest_withPort (m : Memory) (d : Word) (w : Bool) (a : Nat) (dt : Word) (s : State) :
    busTest w a dt (withPort m d s) = withPort m d (busTest w a dt s) := by
  rw [busTest, busChannel_withPort, busChannel_withPort]
  rfl

/-- With one channel of KIND BUS the test is that channel's. -/
theorem busTest_alone {s : State} {ch : Channel} (h : ∀ other, other ≠ ch → s.cueNat other 0 ≠ 2) (w : Bool) (a : Nat)
    (d : Word) : busTest w a d s = busChannel ch s.cue.bArmed w a d s := by
  cases ch with
  | a =>
    have hshadow : (busChannel .a s.cue.bArmed w a d s).cueNat .b 0 = s.cueNat .b 0 := by
      simp [State.cueNat]
    exact busChannel_passes fun hm => h .b (by decide) (hshadow ▸ hm.2.1)
  | b => rw [busTest, busChannel_passes fun hm => h .a (by decide) hm.2.1]

/-- The word of a cycle as the Cue Unit sees it (R154). -/
def ProcCycle.shown (c : ProcCycle) (m : Memory) : Word :=
  laneData c.lanes (if c.isWrite then c.data else readWord m c.addr)

theorem showCycle_eq (c : ProcCycle) (s : State) : showCycle c s = busTest c.isWrite c.cueAddr (c.shown s.mem) s := rfl

theorem requestHold_onlyRaised (c : Cause) (s : State) : OnlyRaised s.report (requestHold c s).report := by
  unfold requestHold
  (repeat' split) <;> simp [enterHeld_onlyRaised, OnlyRaised.refl, pendHold]

theorem cueMatch_bus_onlyRaised (ch : Channel) (detail : Word) (s : State) :
    OnlyRaised s.report (cueMatch ch .bus detail s).report := by
  have hnoted := matchNoted_onlyRaised ch detail s
  cases h : s.actionHolds ch with
  | false => rwa [cueMatch_notes h]
  | true =>
    rw [cueMatch_holds h]
    exact hnoted.trans (requestHold_onlyRaised _ _)

theorem busChannel_onlyRaised (ch : Channel) (armed w : Bool) (a : Nat) (d : Word) (s : State) :
    OnlyRaised s.report (busChannel ch armed w a d s).report := by
  by_cases h : s.busMatches ch armed w a d
  · rw [busChannel_matches h]
    exact cueMatch_bus_onlyRaised ch _ s
  · rw [busChannel_passes h]
    exact .refl _

theorem busTest_onlyRaised (w : Bool) (a : Nat) (d : Word) (s : State) :
    OnlyRaised s.report (busTest w a d s).report :=
  (busChannel_onlyRaised .a _ w a d s).trans (busChannel_onlyRaised .b _ w a d _)

/-- The BUS test leaves the class of every address. -/
theorem busTest_classify (w : Bool) (a : Nat) (d : Word) (s : State) (b : Nat) :
    (busTest w a d s).classify b = s.classify b := by
  have hraised := busTest_onlyRaised w a d s
  have hcopies : (busTest w a d s).report.copies = s.report.copies := by rw [hraised]
  exact classify_congr (by simp) (by simp) (by simp) hcopies b

/-- An effect on memory and PD alone, and the BUS test, in either order. -/
theorem showAround_withPort {c : ProcCycle} {s : State} {m : Memory} {d : Word} {f : State → State}
    (hf : ∀ x, x.mem = s.mem → x.pd = s.pd → (∀ a, x.classify a = s.classify a) → f x = withPort m d x)
    (hshown : c.shown m = c.shown s.mem) :
    showAround c f s = withPort m d (busTest c.isWrite c.cueAddr (c.shown s.mem) s) := by
  have hs : f s = withPort m d s := hf s rfl rfl fun _ => rfl
  unfold showAround
  split
  · rw [showCycle_eq]
    exact hf _ (by simp) (by simp) fun b => busTest_classify _ _ _ s b
  · rw [hs, showCycle_eq, busTest_withPort, show (withPort m d s).mem = m from rfl, hshown]

/-- A read, or a write that passes: its data moves, and the Cue Unit sees it (R154, R162). -/
theorem completeCycle_shown {c : ProcCycle} {s : State} (hi : s.clock.state ≠ .idle)
    (h : c.isWrite = false ∨ s.classify c.addr = .ordinary ∨ s.classify c.addr = .reportRing) :
    completeCycle c s = withPort (if c.isWrite then writeLanes s.mem c.addr c.lanes c.data else s.mem)
      (if c.isWrite then s.pd else c.shown s.mem) (busTest c.isWrite c.cueAddr (c.shown s.mem) s) := by
  have hheld : s.holdsCommand c = false := by simp [State.holdsCommand, hi]
  cases hw : c.isWrite with
  | false =>
    have hread : completeCycle c s = showAround c (setPd (laneData c.lanes (readWord s.mem c.addr))) s := by
      simp [completeCycle, hheld, hw]
    rw [hread, showAround_withPort (m := s.mem) (d := c.shown s.mem)]
    · simp [hw]
    · intro x hm _ _
      rw [setPd_withPort, hm, ProcCycle.shown, hw]
      rfl
    · rfl
  | true =>
    rw [completeCycle_write c hw hheld,
      showAround_withPort (m := writeLanes s.mem c.addr c.lanes c.data) (d := s.pd)]
    · simp [hw]
    · intro x hm hd hclasses
      have hclass := hclasses c.addr
      have hpass : writeEffect c x = passWrite c x := by
        rcases h with h | h | h
        · simp [hw] at h
        · simp [writeEffect, hclass, h]
        · simp [writeEffect, hclass, h]
      rw [hpass, passWrite_withPort, hm, hd]
    · simp [ProcCycle.shown, hw]

/-! ## The test of one channel (R151, R154) -/

theorem busMatches_congr {x y : State} {ch : Channel} {w : Bool} {a : Nat} {d : Word}
    (hstate : x.clock.state = y.clock.state) (hloaded : x.shadow.loaded = y.shadow.loaded)
    (hwords : x.shadow.words = y.shadow.words) (hcue : x.cue = y.cue) :
    x.busMatches ch x.cue.bArmed w a d ↔ y.busMatches ch y.cue.bArmed w a d := by
  have hwatch : x.watching = y.watching := by rw [State.watching, State.watching, hstate, hloaded]
  have hseq : x.shadow.sequential = y.shadow.sequential := by
    rw [Shadow.sequential, Shadow.nat, Shadow.word, hwords]
    rfl
  have hword : x.cueNat ch = y.cueNat ch := by
    funext n
    rw [State.cueNat, Shadow.cueWord, Shadow.word, hwords]
    rfl
  have hpart : x.takesPart ch y.cue.bArmed = y.takesPart ch y.cue.bArmed := by
    unfold State.takesPart
    rw [hwatch, hseq, hcue]
  rw [State.busMatches, hcue, hpart, State.cueAddr, State.cueAddr, hword]
  rfl

/-- The channel of KIND BUS agrees with the cycle (R151, R154). -/
def State.seesCycle (s : State) (ch : Channel) (p : ProcCycle) : Prop :=
  s.busMatches ch s.cue.bArmed p.isWrite p.cueAddr (p.shown s.mem)

theorem cycleKindOk_iff (kind : Nat) (w : Bool) :
    cycleKindOk kind w = true ↔ (kind = 0 → w = false) ∧ (kind = 1 → w = true) := by
  by_cases h0 : kind = 0
  · simp [cycleKindOk, h0]
  · by_cases h1 : kind = 1 <;> simp [cycleKindOk, h0, h1]

theorem takesPart_iff {s : State} {ch : Channel} {armed : Bool} (hwatch : s.watching = true) (hflag : s.cue.flag ch = false) :
    s.takesPart ch armed = true ↔ (ch = .b → s.shadow.sequential = true → armed = true) := by
  cases ch with
  | a => simp [State.takesPart, hwatch, hflag]
  | b => cases hq : s.shadow.sequential <;> simp [State.takesPart, hwatch, hflag, hq]

theorem seesCycle_iff {s : State} {ch : Channel} {p : ProcCycle} (hwatch : s.watching = true)
    (hflag : s.cue.flag ch = false) (hkind : s.cueNat ch 0 = 2) :
    s.seesCycle ch p ↔ (s.cueNat ch 6 = 0 → p.isWrite = false) ∧ (s.cueNat ch 6 = 1 → p.isWrite = true) ∧
      agrees p.cueAddr (s.cueAddr ch 7) (s.cueAddr ch 9) = true ∧
      agrees (p.shown s.mem).toNat (s.cueNat ch 11) (s.cueNat ch 12) = true ∧
      (ch = .b → s.shadow.sequential = true → s.cue.bArmed = true) := by
  rw [State.seesCycle, State.busMatches, takesPart_iff hwatch hflag, cycleKindOk_iff]
  exact ⟨fun ⟨hpart, _, ⟨hread, hwrite⟩, haddr, hdata⟩ => ⟨hread, hwrite, haddr, hdata, hpart⟩,
    fun ⟨hread, hwrite, haddr, hdata, hpart⟩ => ⟨hpart, hkind, ⟨hread, hwrite⟩, haddr, hdata⟩⟩

/-! ## The data word that the Cue Unit sees (R154) -/

theorem getLsbD_wordOf (hi lo : Byte) (i : Nat) :
    (wordOf hi lo).getLsbD i = if i < 8 then lo.getLsbD i else hi.getLsbD (i - 8) := BitVec.getLsbD_append

theorem laneData_low (w : Word) : laneData .low w = w &&& 0x00FF := by
  have hmask : ∀ i : Fin 16, (0x00FF : Word).getLsbD i.val = decide (i.val < 8) := by decide
  rw [laneData, laneMerge, show hiByte (0 : Word) = 0 from rfl, loByte]
  apply BitVec.eq_of_getLsbD_eq
  intro i hi
  rw [getLsbD_wordOf, BitVec.getLsbD_and, hmask ⟨i, hi⟩]
  by_cases h : i < 8 <;> simp [h]

theorem laneData_high (w : Word) : laneData .high w = w &&& 0xFF00 := by
  have hmask : ∀ i : Fin 16, (0xFF00 : Word).getLsbD i.val = !decide (i.val < 8) := by decide
  rw [laneData, laneMerge, show loByte (0 : Word) = 0 from rfl, hiByte]
  apply BitVec.eq_of_getLsbD_eq
  intro i hi
  rw [getLsbD_wordOf, BitVec.getLsbD_and, hmask ⟨i, hi⟩]
  by_cases h : i < 8
  · simp [h]
  · have hin : i - 8 < 8 := by omega
    have hpos : 8 + (i - 8) = i := by omega
    simp [h, hin, hpos]

theorem laneData_both (w : Word) : laneData .both w = w := rfl

theorem cueAddr_eq (p : ProcCycle) :
    p.cueAddr = if p.lanes = .high then 2 * p.wa.toNat + 1 else 2 * p.wa.toNat := by
  cases h : p.lanes <;> simp [ProcCycle.cueAddr, ProcCycle.addr, h]

/-! ## The row of a cycle that is shown -/

/-- What the memory port and PD show after a cycle that passes. -/
def ProcCycle.settled (p : ProcCycle) (s x : State) : State :=
  withPort (if p.isWrite then writeLanes s.mem p.addr p.lanes p.data else s.mem)
    (if p.isWrite then s.pd else p.shown s.mem) x

theorem seen_seesCycle {s y : State} {t : Instant} (hy : Seen s t y) (ch : Channel) (p : ProcCycle) :
    y.busMatches ch y.cue.bArmed p.isWrite p.cueAddr (p.shown s.mem) ↔ s.seesCycle ch p :=
  busMatches_congr (seen_clock hy).1 (seen_shadow hy).1 (seen_shadow hy).2.1 (by simp [seen_parts hy])

theorem actionHolds_congr {x y : State} (hwords : x.shadow.words = y.shadow.words) (ch : Channel) :
    x.actionHolds ch = y.actionHolds ch := by
  unfold State.actionHolds State.cueNat Shadow.cueWord Shadow.sequential Shadow.nat Shadow.word
  rw [hwords]

/-- The row of a cycle that one channel is shown: no match, a match, and a match that asks for a hold. -/
theorem exec_shown {c : Instr} {t : Instant} {p : ProcCycle} {ch : Channel} {s : State} (hc : s.cycleOf c = some (t, p))
    (hopen : s.portOpen p.order) (hwatch : s.watching = true)
    (hkind : p.isWrite = false ∨ s.classify p.addr = .ordinary ∨ s.classify p.addr = .reportRing)
    (halone : ∀ other, other ≠ ch → s.cueNat other 0 ≠ 2) :
    ∃ y, Seen s t y ∧ (¬ s.seesCycle ch p → exec c s = .next (drivePins (p.settled s y))) ∧
      (s.seesCycle ch p → s.actionHolds ch = false →
        exec c s = .next (drivePins (p.settled s (matchNoted ch (toWord p.cueAddr) y)))) ∧
      (s.seesCycle ch p → s.actionHolds ch = true →
        exec c s = .next (drivePins (p.settled s
          (requestHold (cueCause ch) (matchNoted ch (toWord p.cueAddr) y))))) := by
  have hactive : (advance t s).clock.state ≠ .idle := by
    intro hidle
    simp [State.watching, show s.clock.state = .idle from hidle] at hwatch
  have hrow : exec c s = .next (drivePins (p.settled s
      (busChannel ch (advance t s).cue.bArmed p.isWrite p.cueAddr (p.shown s.mem) (advance t s)))) := by
    rw [exec_cycleOf hc, cycleRow_open hopen, completeCycle_shown hactive hkind,
      busTest_alone (s := advance t s) (ch := ch) halone]
    rfl
  have hy := seen_advance s t
  have hsees := seen_seesCycle hy ch p
  have hacts := actionHolds_congr (seen_shadow hy).2.1 ch
  rw [hrow]
  refine ⟨advance t s, hy, fun h => ?_, fun h ha => ?_, fun h ha => ?_⟩
  · rw [busChannel_passes ((not_congr hsees).mpr h)]
  · rw [busChannel_matches (hsees.mpr h), cueMatch_notes (hacts.trans ha)]
  · rw [busChannel_matches (hsees.mpr h), cueMatch_holds (hacts.trans ha)]
    rfl

/-- The state after a cycle that was shown: memory and PD, the cue flags, the clock and the bookkeeping. -/
theorem frame_of_shown {s y x : State} {t : Instant} {p : ProcCycle} {d : Word} {k : Cue} {clock : Clock} (hy : Seen s t y)
    (hd : p.shown s.mem = d) (hreport : OnlyRaised y.report x.report) (hcue : x.cue = k) (hclock : x.clock = clock)
    (hx : x = { y with cue := x.cue, clock := x.clock, report := x.report, updates := x.updates }) :
    drivePins (p.settled s x) =
      { s.withBook (drivePins (p.settled s x)) with
        mem := if p.isWrite then writeLanes s.mem (2 * p.wa.toNat) p.lanes p.data else s.mem
        pd := if p.isWrite then s.pd else d, cue := k, clock := clock } := by
  subst hd hcue hclock
  refine frame_of_row hy ?_
  generalize x.cue = cue, x.clock = clock, x.report = report, x.updates = updates at hx hreport
  subst hx
  apply state_ext
  case arb => simpa [ProcCycle.settled, withPort] using seen_arb_eq hy
  case shadow => simpa [ProcCycle.settled, withPort] using seen_shadow_eq hy
  case report => simpa [ProcCycle.settled, withPort, OnlyRaised, seen_parts hy] using hreport
  all_goals simp [ProcCycle.settled, withPort, ProcCycle.addr, seen_parts hy]

/-- The state after records and a match: the cue flags and the bookkeeping. -/
theorem frame_of_marked {s y x : State} {t : Instant} {k : Cue} (hy : Seen s t y) (hcue : x.cue = k)
    (hreport : OnlyRaised y.report x.report)
    (hx : x = { y with cue := x.cue, report := x.report, updates := x.updates }) :
    drivePins x = { s.withBook (drivePins x) with cue := k } := by
  subst hcue
  refine frame_of_row hy ?_
  generalize x.cue = cue, x.report = report, x.updates = updates at hx hreport
  subst hx
  apply state_ext
  case clock => simpa using seen_clock_eq hy
  case arb => simpa using seen_arb_eq hy
  case shadow => simpa using seen_shadow_eq hy
  case report => simpa [OnlyRaised, seen_parts hy] using hreport
  all_goals simp [seen_parts hy]

/-- A match adds its report behind what is outstanding. -/
theorem matchNoted_grows (ch : Channel) (detail : Word) (s : State) :
    ∃ rest, (matchNoted ch detail s).outstanding = s.outstanding ++ rest := by
  obtain ⟨rest, h⟩ := raise_outstanding_grows .matched (channelWord ch) detail (flagMatch ch s)
  exact ⟨rest, h.trans (by simp [outstanding_eq])⟩

/-- Outside STARVED and PLAYING a hold is not requested (R52). -/
theorem requestHold_elsewhere {s : State} (h : s.clock.state ≠ .starved) (h' : s.clock.state ≠ .playing) (c : Cause) :
    requestHold c s = s := by
  unfold requestHold
  split <;> simp_all

/-- A write of a LOCKED or part-written word outside IDLE that a channel matches without a hold: the two reports join in the
order of the row (R154, R160, R164). -/
theorem withheld_matched {c : Instr} {t : Instant} {p : ProcCycle} {ch : Channel} {s : State} {off : Nat}
    (hc : s.cycleOf c = some (t, p)) (hr : s.rst = false) (hw : s.arb.waiting = none) (hh : s.shadow.held = none)
    (hp : p.isWrite = true) (hwatch : s.watching = true) (halone : ∀ other, other ≠ ch → s.cueNat other 0 ≠ 2)
    (hsees : s.seesCycle ch p) (hnotes : s.actionHolds ch = false) (hclass : s.classify p.addr = .setup off)
    (hword : pageWord off = .locked ∨ pageWord off = .partWritten) :
    ∃ y, Seen s t y ∧ exec c s = .next (drivePins
      (if p.order.cueFirst then raise .withheld 0 (toWord off) (matchNoted ch (toWord p.cueAddr) y)
      else matchNoted ch (toWord p.cueAddr) (raise .withheld 0 (toWord off) y))) := by
  obtain ⟨y, hy, hrow⟩ := cycleRow_withheld (t := t) (p := p) hr hw hh
  refine ⟨y, hy, ?_⟩
  have hactive : s.clock.state ≠ .idle := by
    intro hidle
    simp [State.watching, hidle] at hwatch
  have hyactive : y.clock.state ≠ .idle := by rw [(seen_clock hy).1]; exact hactive
  have hyclass := (seen_classify hy p.addr).trans hclass
  have hwithholds : y.withholds p = true := by rcases hword with h | h <;> simp [State.withholds, hyclass, h, hyactive]
  /- What the channel does in a state that reads as `s` does. -/
  have htest : ∀ x : State, x.clock.state = s.clock.state → x.shadow.loaded = s.shadow.loaded →
      x.shadow.words = s.shadow.words → x.cue = s.cue → showCycle p x = matchNoted ch (toWord p.cueAddr) x := by
    intro x hstate hloaded hwords hcue
    have hnat : ∀ other n, x.cueNat other n = s.cueNat other n := fun other n => by
      rw [State.cueNat, Shadow.cueWord, Shadow.word, hwords]
      rfl
    have hshown : p.shown x.mem = p.shown s.mem := by simp [ProcCycle.shown, hp]
    have hxsees : x.busMatches ch x.cue.bArmed p.isWrite p.cueAddr (p.shown s.mem) :=
      (busMatches_congr hstate hloaded hwords hcue).mpr hsees
    have hxnotes : x.actionHolds ch = false := by
      have hseq : x.shadow.sequential = s.shadow.sequential := by
        rw [Shadow.sequential, Shadow.nat, Shadow.word, hwords]
        rfl
      rw [← hnotes]
      unfold State.actionHolds
      rw [hnat, hseq]
    rw [showCycle_eq, hshown, busTest_alone fun other ho => by rw [hnat]; exact halone other ho, busChannel_matches hxsees,
      cueMatch_notes hxnotes]
  have heffect : ∀ x : State, x.clock.state = y.clock.state → x.classify p.addr = y.classify p.addr →
      writeEffect p x = raise .withheld 0 (toWord off) x := by
    intro x hstate hxclass
    have hx : x.clock.state ≠ .idle := by rwa [hstate]
    rw [writeEffect_setup (hxclass.trans hyclass)]
    rcases hword with h | h <;> simp [setupWrite, h, guardedWrite, hx]
  have hytest := htest y (seen_clock hy).1 (seen_shadow hy).1 (seen_shadow hy).2.1 (by simp [seen_parts hy])
  rw [exec_cycleOf hc, hrow hp hwithholds, completeCycle_write p hp (holdsCommand_outside_idle p hyactive), showAround]
  congr 2
  split
  · rw [hytest, heffect _ (by simp)]
    rw [← hytest]
    exact busTest_classify _ _ _ _ _
  · rw [heffect y rfl rfl]
    exact htest _ (by simp [seen_clock hy]) (by simp [seen_shadow hy]) (by simp [seen_shadow hy]) (by simp [seen_parts hy])

end Sys2Proof.Machine

open Sys2Proof Sys2Proof.Machine

/-- Settles O13: one channel's test in the row (`exec_shown`), and its match without and with a hold. -/
theorem busCueMatchesARead : Obligations.bus_cue_matches_a_read := by
  intro c t p ch s hc hwatch hflag hkind halone addr seen data matching cue holds cause number shown sameClock
  have haddr : p.cueAddr = addr := cueAddr_eq p
  have hdata : p.shown s.mem = data := by
    cases hl : p.lanes <;> simp [data, seen, ProcCycle.shown, ProcCycle.addr, hl, laneData_low, laneData_high, laneData_both]
  have hmatching : s.seesCycle ch p ↔ matching := by
    rw [seesCycle_iff hwatch hflag hkind, haddr, hdata]
  have hholds : s.actionHolds ch = true ↔ holds := by
    cases ch <;> simp [State.actionHolds, holds]
  have hcause : cueCause ch = cause := by cases ch <;> rfl
  have hnumber : channelWord ch = number := by cases ch <;> rfl
  have hcue : ∀ x : State, x.cue = s.cue.matched ch s.shadow.sequential → x.cue = cue x := by
    intro x hx
    cases ch with
    | a => exact hx
    | b => cases hq : s.shadow.sequential <;> simp [cue, hx, Cue.matched, hq]
  refine ⟨fun hopen hpass => ?_, ?_⟩
  · obtain ⟨y, hy, hpasses, hmatches, hrequests⟩ := exec_shown hc hopen hwatch hpass halone
    have hnoted := matchNoted_raised (s := s) (y := y) ch (toWord p.cueAddr) (by simp [seen_parts hy])
      (by simp [seen_parts hy])
    have honly := matchNoted_onlyRaised ch (toWord p.cueAddr) y
    have hflags : (matchNoted ch (toWord p.cueAddr) y).cue = s.cue.matched ch s.shadow.sequential := by
      simp [matchNoted_cue, seen_parts hy, Shadow.sequential, seen_shadow hy]
    have hclock := seen_clock_eq hy
    rw [haddr] at hmatches hrequests hnoted honly hflags
    rw [hnumber] at hnoted
    rw [hcause] at hrequests
    refine ⟨?_, ?_, ?_, ?_⟩
    · intro hm
      exact ⟨_, hpasses ((not_congr hmatching).mpr hm), by simp [State.raisedNone, ProcCycle.settled, withPort, seen_parts hy],
        frame_of_shown hy hdata (.refl _) (by simp [seen_parts hy]) hclock rfl⟩
    · intro hm hno
      have hrow : exec c s = .next (drivePins (p.settled s (matchNoted ch (toWord addr) y))) := by
        by_cases hh : holds
        · obtain ⟨hstarved, hplaying⟩ := hno.resolve_left (not_not_intro hh)
          have hrow := hrequests (hmatching.mpr hm) (hholds.mpr hh)
          rwa [requestHold_elsewhere (by simpa [seen_clock hy] using hstarved) (by simpa [seen_clock hy] using hplaying)]
            at hrow
        · exact hmatches (hmatching.mpr hm) (by simpa using (not_congr hholds).mpr hh)
      exact ⟨_, hrow, hnoted, frame_of_shown hy hdata honly (hcue _ hflags) (by simpa [sameClock, ProcCycle.settled, withPort] using hclock)
        (by apply state_ext <;> simp)⟩
    · intro hm hh hplaying hline
      have hrow := hrequests (hmatching.mpr hm) (hholds.mpr hh)
      rw [requestHold_pends (by simpa [seen_clock hy] using hplaying) (by simpa [seen_clock hy] using hline)] at hrow
      refine ⟨_, hrow, hnoted, frame_of_shown hy hdata honly (hcue _ hflags) ?_ (by apply state_ext <;> simp)⟩
      apply clock_ext <;> simp [pendHold, updClock, sameClock, ProcCycle.settled, withPort, seen_clock hy, seen_owed hy]
    · intro hm hh hstate
      have hrow := hrequests (hmatching.mpr hm) (hholds.mpr hh)
      rw [requestHold_atOnce (by simpa [seen_clock hy] using hstate)] at hrow
      refine ⟨_, hrow, raised_then hnoted (enterHeld_grows _ _),
        frame_of_shown hy hdata (honly.trans (enterHeld_onlyRaised _ _)) (hcue _ (by simpa using hflags)) ?_
          (by apply state_ext <;> simp)⟩
      apply clock_ext <;> simp [enterHeld_clock, sameClock, ProcCycle.settled, withPort, seen_clock hy]
  · intro hr hw hh hp hm hno off hclass hword
    obtain ⟨y, hy, hrow⟩ := withheld_matched hc hr hw hh hp hwatch halone (hmatching.mpr hm) (by simpa using (not_congr hholds).mpr hno)
      hclass hword
    rw [hrow, haddr]
    refine ⟨_, rfl, ?_⟩
    have hreport : y.report = s.report := by simp [seen_parts hy]
    have htag : y.track.lastTag = s.track.lastTag := by simp [seen_parts hy]
    have hseq : y.shadow.sequential = s.shadow.sequential := by simp [Shadow.sequential, seen_shadow hy]
    cases p.order.cueFirst with
    | true =>
      refine ⟨?_, ?_⟩
      · have hnoted := matchNoted_raised ch (toWord addr) hreport htag
        rw [hnumber] at hnoted
        exact raised_then hnoted (raise_outstanding_grows _ _ _ _)
      · exact frame_of_marked hy (hcue _ (by simp [matchNoted_cue, hseq, seen_parts hy]))
          ((matchNoted_onlyRaised _ _ _).trans (raise_onlyRaised _ _ _ _)) (by apply state_ext <;> simp)
    | false =>
      refine ⟨?_, ?_⟩
      · exact raised_then (raise_raised hreport htag) (matchNoted_grows _ _ _)
      · exact frame_of_marked hy (hcue _ (by simp [matchNoted_cue, hseq, seen_parts hy]))
          ((raise_onlyRaised _ _ _ _).trans (matchNoted_onlyRaised _ _ _)) (by apply state_ext <;> simp)
end

section
/-! PROOF. An entry made by a decode (R85 to R89), and the stages' end (R23, R38). -/

namespace Sys2Proof.Machine

/-! ## An entry made ahead of its due (R85, R87) -/

/-- An entry ahead of its due, with room, and no MOVE to replace: it takes its place. -/
theorem makeEntry_room {e : Entry} {s : State} (h : s.now < e.due) (hroom : s.sched.length < 128)
    (hmove : ∀ p, isMoveOf p e = true → s.sched.any (isMoveOf p) = false) : makeEntry e s = insertSched e s := by
  rw [makeEntry, if_neg (Nat.not_le.mpr h)]
  cases hact : e.act with
  | strike k level serial => exact if_pos hroom
  | release k serial => exact if_pos hroom
  | move p depth =>
    have hnone := hmove p (by simp [isMoveOf, hact])
    simp only [hnone]
    exact if_pos hroom

/-- A MOVE ahead of its due replaces an older one of its pedal, full or not (R87). -/
theorem makeEntry_replaces {e : Entry} {s : State} {p : Pedal} {depth : Nat} (hact : e.act = .move p depth)
    (h : s.now < e.due) (hany : s.sched.any (isMoveOf p) = true) : makeEntry e s = insertSched e (dropMove p s) := by
  rw [makeEntry, if_neg (Nat.not_le.mpr h), hact]
  exact if_pos hany

theorem insertSched_sched (e : Entry) (s : State) : (insertSched e s).sched = insertEntry e s.sched := rfl

theorem insertSched_frame (e : Entry) (s : State) :
    insertSched e s = { s with sched := insertEntry e s.sched, updates := (insertSched e s).updates } := rfl

theorem length_insertEntry (e : Entry) (l : List Entry) : (insertEntry e l).length = l.length + 1 :=
  (insertEntry_perm e l).length_eq

theorem filter_noMove {p : Pedal} {l : List Entry} (h : l.any (isMoveOf p) = false) :
    l.filter (fun e => !isMoveOf p e) = l :=
  List.filter_eq_self.mpr fun e he => by simpa using List.any_eq_false.mp h e he

/-- A MOVE ahead of its due with room: in place of any older one of its pedal. -/
theorem makeEntry_move {e : Entry} {s : State} {p : Pedal} {depth : Nat} (hact : e.act = .move p depth)
    (h : s.now < e.due) (hroom : s.sched.length < 128) :
    (makeEntry e s).sched = insertEntry e (s.sched.filter fun x => !isMoveOf p x) ∧
      makeEntry e s = { s with sched := (makeEntry e s).sched, updates := (makeEntry e s).updates } := by
  cases hany : s.sched.any (isMoveOf p) with
  | true =>
    rw [makeEntry_replaces hact h hany]
    exact ⟨rfl, rfl⟩
  | false =>
    have hmove : ∀ q, isMoveOf q e = true → s.sched.any (isMoveOf q) = false := by
      intro q hq
      have hpq : p = q := by simpa [isMoveOf, hact] using hq
      exact hpq ▸ hany
    rw [makeEntry_room h hroom hmove, filter_noMove hany]
    exact ⟨rfl, rfl⟩

/-- Keys taken one by one, each of which may make one entry, while there is room for all. -/
theorem foldl_inserts {f : State → Key → State} {e : Key → Entry} {p : Key → Bool} {y : State}
    (hf : ∀ (x : State) (k : Key), x = { y with sched := x.sched, updates := x.updates } → x.sched.length < 128 →
      f x k = if p k then insertSched (e k) x else x)
    (keys : List Key) {x : State} (hx : x = { y with sched := x.sched, updates := x.updates })
    (hroom : x.sched.length + keys.length ≤ 128) :
    (keys.foldl f x).sched = (keys.filter p).foldl (fun l k => insertEntry (e k) l) x.sched ∧
      keys.foldl f x = { y with sched := (keys.foldl f x).sched, updates := (keys.foldl f x).updates } := by
  induction keys generalizing x with
  | nil => exact ⟨rfl, hx⟩
  | cons k keys ih =>
    rw [List.length_cons] at hroom
    rw [List.foldl_cons, hf x k hx (by omega)]
    cases hk : p k with
    | false =>
      rw [List.filter_cons_of_neg (by simp [hk])]
      exact ih (x := x) hx (by omega)
    | true =>
      rw [List.filter_cons_of_pos hk, List.foldl_cons]
      refine ih (x := insertSched (e k) x) ?_ ?_
      · rw [hx]
        rfl
      · rw [insertSched_sched, length_insertEntry]
        omega

/-! ## The end of a stage, or of a part of one (R23, R38) -/

/-- The stage that was up is over, or its keys before one given are. -/
def decodeUp (upTo : Option Key) (s : State) : State :=
  match upTo with
  | none => nextStage s
  | some k =>
    updTrack (fun t => { t with decode := t.decode.map (fun d => { d with reached := max d.reached k.val }) }) s

/-- The decode after that. -/
def Decode.up (d : Decode) (upTo : Option Key) : Decode :=
  match upTo with
  | none => { d with stage := d.stage + 1, reached := 0 }
  | some k => { d with reached := max d.reached k.val }

/-- The first key whose turn does not come. -/
def lastKey : Option Key → Nat
  | none => 88
  | some k => k.val

theorem decodeUp_frame {s : State} {d : Decode} (hd : s.track.decode = some d) (upTo : Option Key) :
    decodeUp upTo s = { s with track := { s.track with decode := some (d.up upTo) } } := by
  cases upTo <;> simp [decodeUp, nextStage, updTrack, Decode.up, hd]

theorem onDecodeStage_notes {s : State} {d : Decode} (hd : s.track.decode = some d) (h : d.stage = 5 ∨ d.stage = 6)
    (upTo : Option Key) :
    onDecodeStage upTo s = decodeUp upTo (noteWork d (keysFrom d.reached (lastKey upTo)) s) := by
  have h8 : d.stage ≤ 8 := by omega
  cases upTo with
  | none =>
    rw [onDecodeStage_taken hd h8, stageWork]
    rcases h with h | h <;> simp [h, decodeUp, lastKey]
  | some k => rcases h with h | h <;> simp [onDecodeStage, hd, decodeOn, h, decodeUp, lastKey]

/-- A row of a decode stage in a state whose decode stands at `d`. -/
theorem decodeStage_row {s : State} {t : Instant} {d : Decode} (hr : s.rst = false) (hd : s.track.decode = some d)
    (upTo : Option Key) :
    ∃ y, Seen s t y ∧ y.track.decode = some d ∧
      exec (.decodeStage ⟨t, upTo⟩) s = .next (drivePins (onDecodeStage upTo y)) := by
  obtain ⟨y, hy, hrow, -⟩ := partRow_seen (t := t) hr
  have htrack : y.track = s.track := by simp [seen_parts hy]
  exact ⟨y, hy, by rw [htrack]; exact hd, hrow _⟩

/-- A row of a stage that completes. -/
theorem stage_row {s : State} {t : Instant} {d : Decode} (hr : s.rst = false) (hd : s.track.decode = some d)
    (h : d.stage ≤ 8) :
    ∃ y, Seen s t y ∧ y.track.decode = some d ∧
      exec (.decodeStage ⟨t, none⟩) s = .next (drivePins (nextStage (stageWork d y))) := by
  obtain ⟨y, hy, hdecode, hrow⟩ := decodeStage_row (t := t) hr hd none
  exact ⟨y, hy, hdecode, by rw [hrow, onDecodeStage_taken hdecode h]⟩

theorem keysFrom_filter (p : Key → Bool) (lo hi : Nat) :
    (keysFrom lo hi).filter p = allKeys.filter (fun k => decide (lo ≤ k.val) && decide (k.val < hi) && p k) := by
  rw [keysFrom, List.filter_filter]
  congr 1
  funext k
  rw [Bool.and_comm]

theorem length_keysFrom_le (lo hi : Nat) : (keysFrom lo hi).length ≤ 88 :=
  Nat.le_trans (List.length_filter_le _ _) (by simp [allKeys])

end Sys2Proof.Machine
end

section
/-! PROOF. Stages 2 to 5, 7 and 8 of the decode (R28 to R35, R153). -/

namespace Sys2Proof.Machine

/-- A row that completed a stage, or a part of one. -/
theorem frame_of_decode {s y x : State} {t : Instant} {track : Track} {expr : Expression} {sched : List Entry}
    {pedals : PedalUnit} {cue : Cue} {clock : Clock} (hy : Seen s t y) (hreport : OnlyRaised y.report x.report)
    (hx : x = { y with
      track := track, expr := expr, sched := sched, pedals := pedals, cue := cue, clock := clock
      report := x.report, updates := x.updates }) :
    drivePins x = { s.withBook (drivePins x) with
      track := track, expr := expr, sched := sched, pedals := pedals, cue := cue, clock := clock } := by
  refine frame_of_row hy ?_
  generalize x.report = report, x.updates = updates at hx hreport
  subst hx
  apply state_ext
  case arb => simpa using seen_arb_eq hy
  case shadow => simpa using seen_shadow_eq hy
  case report => simpa [OnlyRaised, seen_parts hy] using hreport
  all_goals simp [seen_parts hy]

/-! ## Stage 2 (R28, R29) -/

theorem rowAfter_eq (r : Ring) (t : Track) (slot : Fin 112) :
    rowAfter r t slot.val =
      (if (t.map.get slot).fn = 0 then t.rows.get slot
      else confirmRow t (t.rows.get slot) (rawOpen r t (t.map.get slot))) := by
  simp [rowAfter]

theorem confirmRow_eq (t : Track) (row : TrackRow) (raw : Bool) :
    confirmRow t row raw =
      (if raw = row.isOpen then { isOpen := row.isOpen, count := 0 }
      else if (if row.isOpen then t.closeConfirm else t.openConfirm) ≤ row.count + 1 then { isOpen := raw, count := 0 }
      else { isOpen := row.isOpen, count := row.count + 1 }) := rfl

theorem mem_slotsTurning {r : Ring} {t : Track} {b : Bool} {slot : Fin 112} :
    slot.val ∈ slotsTurning r t b ↔ (t.rows.get slot).isOpen ≠ b ∧ (rowAfter r t slot.val).isOpen = b := by
  simp [slotsTurning]

theorem stageConfirm_frame {s : State} {d : Decode} (hd : s.track.decode = some d) :
    nextStage (stageConfirm s) = { s with
      track := { s.track with
        rows := Bank.tabulate 112 (rowAfter s.ring s.track)
        decode := some { d with
          stage := d.stage + 1, reached := 0, opened := slotsTurning s.ring s.track true
          closed := slotsTurning s.ring s.track false } } } := by
  simp [nextStage, stageConfirm, updTrack, hd]

/-- Stage 2 of the obligation O31. -/
theorem stageTwo_row {s : State} {t : Instant} {d : Decode} (hr : s.rst = false) (hd : s.track.decode = some d)
    (h2 : d.stage = 2) :
    ∃ s', exec (.decodeStage ⟨t, none⟩) s = .next s' ∧
      s'.track.rows = Bank.tabulate 112 (rowAfter s.ring s.track) ∧
      s' = { s.withBook s' with
        track := { s.track with
          rows := s'.track.rows
          decode := some { d with
            stage := 3, reached := 0, opened := slotsTurning s.ring s.track true
            closed := slotsTurning s.ring s.track false } } } := by
  obtain ⟨y, hy, hdecode, hrow⟩ := stage_row (t := t) hr hd (by omega)
  have hwork : stageWork d y = stageConfirm y := by simp [stageWork, h2]
  have htrack : y.track = s.track := by simp [seen_parts hy]
  have hring : y.ring = s.ring := by simp [seen_parts hy]
  rw [hwork, stageConfirm_frame hdecode, htrack, hring, h2] at hrow
  refine ⟨_, hrow, rfl, ?_⟩
  refine frame_of_decode (expr := s.expr) (sched := s.sched) (pedals := s.pedals) (cue := s.cue) hy (.refl _) ?_
  apply state_ext
  case clock => simpa using seen_clock_eq hy
  all_goals simp [seen_parts hy]

/-! ## Stage 3 (R30, R70) -/

theorem stageExpression_frame {s : State} {d : Decode} (hd : s.track.decode = some d) :
    nextStage (stageExpression s) = { s with
      expr := { s.expr with
        soft := s.track.fnOpen 91
        bass := sideInputs s.track 93 s.expr.base s.expr.bass
        treble := sideInputs s.track 100 s.expr.base s.expr.treble }
      track := { s.track with decode := some { d with stage := d.stage + 1, reached := 0 } }
      updates := (stageExpression s).updates } := by
  simp [nextStage, stageExpression, updTrack, hd, setExprRest, setSides]

theorem sideInputs_fields (t : Track) (first base : Nat) (old : Side) :
    (sideInputs t first base old).level = old.level ∧
      (sideInputs t first base old).step = (if t.fnOpen first then 1 else 0) + (if t.fnOpen (first + 1) then 2 else 0) +
        (if t.fnOpen (first + 2) then 4 else 0) ∧
      (sideInputs t first base old).target = min 31 (base + 3 * (sideInputs t first base old).step) * 16 ∧
      (sideInputs t first base old).swell = t.fnOpen (first + 3) ∧
      (sideInputs t first base old).fade = t.fnOpen (first + 4) ∧
      (sideInputs t first base old).rush = t.fnOpen (first + 5) ∧
      (sideInputs t first base old).accent = t.fnOpen (first + 6) :=
  ⟨rfl, rfl, rfl, rfl, rfl, rfl, rfl⟩

theorem stageThree_row {s : State} {t : Instant} {d : Decode} (hr : s.rst = false) (hd : s.track.decode = some d)
    (h3 : d.stage = 3) :
    ∃ s', exec (.decodeStage ⟨t, none⟩) s = .next s' ∧ s'.expr.soft = s.track.fnOpen 91 ∧
      s'.expr.bass = sideInputs s.track 93 s.expr.base s.expr.bass ∧
      s'.expr.treble = sideInputs s.track 100 s.expr.base s.expr.treble ∧
      s' = { s.withBook s' with
        track := { s.track with decode := some { d with stage := 4, reached := 0 } }
        expr := { s'.expr with copies := s.expr.copies, sample := s.expr.sample } } := by
  obtain ⟨y, hy, hdecode, hrow⟩ := stage_row (t := t) hr hd (by omega)
  have hwork : stageWork d y = stageExpression y := by simp [stageWork, h3]
  have htrack : y.track = s.track := by simp [seen_parts hy]
  have hexpr : y.expr = s.expr := by simp [seen_parts hy]
  rw [hwork, stageExpression_frame hdecode, htrack, hexpr, h3] at hrow
  refine ⟨_, hrow, rfl, rfl, rfl, ?_⟩
  refine frame_of_decode (sched := s.sched) (pedals := s.pedals) (cue := s.cue) hy (.refl _) ?_
  apply state_ext
  case clock => simpa using seen_clock_eq hy
  all_goals simp [seen_parts hy]

/-! ## Stage 4 (R31, R84, R87) -/

/-- One pedal's part of stage 4 on the schedule. -/
def aimed (s : State) (l : List Entry) (p : Pedal) : List Entry :=
  if s.pedalTarget p = (s.pedals.pedal p).target then l
  else insertEntry { act := .move p (s.pedalTarget p), due := s.entryDue (s.shadow.pedalLead p), tag := s.ring.lineTag }
    (l.filter (fun e => !isMoveOf p e))

/-- What stage 4 has moved: the schedule and the pedals' records. -/
def Aimed (s z : State) : Prop :=
  z = { s with sched := z.sched, pedals := { s.pedals with recs := z.pedals.recs }, updates := z.updates }

theorem Aimed.refl (s : State) : Aimed s s := rfl

theorem Aimed.trans {a b c : State} (h : Aimed a b) (h' : Aimed b c) : Aimed a c := by
  unfold Aimed at *
  rw [h', h]

theorem pedalStage_aimed {s x : State} {p : Pedal} (hx : Aimed s x) (hp : x.pedals.pedal p = s.pedals.pedal p)
    (hdue : s.pedalTarget p ≠ (s.pedals.pedal p).target → s.now < s.entryDue (s.shadow.pedalLead p))
    (hroom : x.sched.length < 128) :
    (pedalStage x p).sched = aimed s x.sched p ∧ Aimed x (pedalStage x p) ∧
      (∀ q, (pedalStage x p).pedals.pedal q =
        if q = p then { s.pedals.pedal p with target := s.pedalTarget p } else x.pedals.pedal q) ∧
      (pedalStage x p).sched.length ≤ x.sched.length + 1 := by
  have htarget : x.pedalTarget p = s.pedalTarget p := by
    rw [hx]
    rfl
  have hentry : x.entryDue (x.shadow.pedalLead p) = s.entryDue (s.shadow.pedalLead p) := by
    rw [hx]
    rfl
  have htag : x.ring.lineTag = s.ring.lineTag := by rw [hx]
  have hnow : x.now = s.now := by rw [hx]
  unfold pedalStage aimed
  rw [htarget, hp, hentry, htag]
  by_cases h : s.pedalTarget p = (s.pedals.pedal p).target
  · rw [if_pos h, if_pos h]
    refine ⟨rfl, rfl, fun q => ?_, by omega⟩
    by_cases hq : q = p
    · rw [if_pos hq, hq, hp, h]
    · rw [if_neg hq]
  · rw [if_neg h, if_neg h]
    obtain ⟨hsched, hframe⟩ := makeEntry_move (p := p) (depth := s.pedalTarget p)
      (e := { act := .move p (s.pedalTarget p), due := s.entryDue (s.shadow.pedalLead p), tag := s.ring.lineTag })
      (s := updPedal p (fun r => { r with target := s.pedalTarget p }) x) rfl (by simpa [hnow] using hdue h)
      (by simpa using hroom)
    refine ⟨by simpa using hsched, ?_, fun q => ?_, ?_⟩
    · rw [Aimed, hframe]
      rfl
    · rw [hframe, ← hp]
      exact updPedal_pedal p _ x q
    · rw [hsched, length_insertEntry]
      have hle := List.length_filter_le (fun e => !isMoveOf p e) x.sched
      simpa using hle

theorem stagePedals_aimed {s : State} (hroom : s.sched.length ≤ 125)
    (hdue : ∀ p, s.pedalTarget p ≠ (s.pedals.pedal p).target → s.now < s.entryDue (s.shadow.pedalLead p)) :
    (stagePedals s).sched = [Pedal.damper, .soft, .sostenuto].foldl (aimed s) s.sched ∧ Aimed s (stagePedals s) ∧
      ∀ p, (stagePedals s).pedals.pedal p = { s.pedals.pedal p with target := s.pedalTarget p } := by
  have hfold : stagePedals s = pedalStage (pedalStage (pedalStage s .damper) .soft) .sostenuto := by
    simp only [stagePedals, allPedals, List.foldl_cons, List.foldl_nil]
  rw [hfold]
  obtain ⟨hs1, ha1, hp1, hl1⟩ := pedalStage_aimed (s := s) (x := s) (p := .damper) (.refl s) rfl (hdue _)
    (Nat.lt_of_le_of_lt hroom (by decide))
  generalize pedalStage s .damper = a at *
  obtain ⟨hs2, ha2, hp2, hl2⟩ := pedalStage_aimed (s := s) (x := a) (p := .soft) ha1 (by simp [hp1]) (hdue _) (by omega)
  generalize pedalStage a .soft = b at *
  obtain ⟨hs3, ha3, hp3, -⟩ := pedalStage_aimed (s := s) (x := b) (p := .sostenuto) (ha1.trans ha2) (by simp [hp2, hp1])
    (hdue _) (by omega)
  refine ⟨?_, (ha1.trans ha2).trans ha3, fun p => ?_⟩
  · rw [hs3, hs2, hs1]
    simp only [List.foldl_cons, List.foldl_nil]
  · rw [hp3, hp2, hp1]
    cases p <;> simp

theorem entryDue_of {s y : State} {ld : Instant} (hl : y.clock.lineDue = some ld) (hs : y.shadow.lookahead = s.shadow.lookahead)
    (lead : Nat) : y.entryDue lead = ld + 100 * (s.shadow.lookahead - lead) := by
  simp [State.entryDue, State.lineDueAt, hl, hs, Config.unit]

theorem pedalTarget_congr {s y : State} (ht : y.track = s.track) (hs : y.shadow.halfDepth = s.shadow.halfDepth)
    (p : Pedal) : y.pedalTarget p = s.pedalTarget p := by
  unfold State.pedalTarget
  rw [ht, hs]

theorem stageFour_row {s : State} {t ld : Instant} {d : Decode} (hr : s.rst = false) (hd : s.track.decode = some d)
    (h4 : d.stage = 4) (hm : d.muted = false) (hl : s.clock.lineDue = some ld) (hroom : s.sched.length ≤ 125)
    (hdue : ∀ p, s.pedalTarget p ≠ (s.pedals.pedal p).target →
      s.at t < ld + 100 * (s.shadow.lookahead - s.shadow.pedalLead p)) :
    ∃ s', exec (.decodeStage ⟨t, none⟩) s = .next s' ∧ s.raisedNone s' ∧
      (∀ p, s'.pedals.pedal p = { s.pedals.pedal p with target := s.pedalTarget p }) ∧
      s'.sched = [Pedal.damper, .soft, .sostenuto].foldl (fun l p =>
        if s.pedalTarget p = (s.pedals.pedal p).target then l
        else insertEntry
          { act := .move p (s.pedalTarget p), due := ld + 100 * (s.shadow.lookahead - s.shadow.pedalLead p)
            tag := s.ring.lineTag }
          (l.filter (fun e => !isMoveOf p e))) s.sched ∧
      s' = { s.withBook s' with
        track := { s.track with decode := some { d with stage := 5, reached := 0 } }
        sched := s'.sched, pedals := { s.pedals with recs := s'.pedals.recs } } := by
  obtain ⟨y, hy, hdecode, hrow⟩ := stage_row (t := t) hr hd (by omega)
  have hwork : stageWork d y = stagePedals y := by simp [stageWork, h4, hm]
  have htrack : y.track = s.track := by simp [seen_parts hy]
  have hpedals : y.pedals = s.pedals := by simp [seen_parts hy]
  have hring : y.ring = s.ring := by simp [seen_parts hy]
  have hsched : y.sched = s.sched := by simp [seen_parts hy]
  have hnow : y.now = s.at t := by simp [seen_parts hy]
  have hnats := (seen_shadow hy).2.2.2.2.2.2.2.1
  have htarget := pedalTarget_congr htrack (hnats _)
  have hlead : ∀ p, y.shadow.pedalLead p = s.shadow.pedalLead p := fun p => hnats _
  have hentry : ∀ p, y.entryDue (y.shadow.pedalLead p) = ld + 100 * (s.shadow.lookahead - s.shadow.pedalLead p) :=
    fun p => by rw [entryDue_of (by simpa [seen_clock hy] using hl) (hnats _), hlead]
  obtain ⟨hs', haimed, hp'⟩ := stagePedals_aimed (s := y) (by rw [hsched]; exact hroom) fun p hp => by
    rw [hentry, hnow]
    exact hdue p (by rwa [htarget, hpedals] at hp)
  rw [hwork] at hrow
  have hsteps : aimed y = fun l p => if s.pedalTarget p = (s.pedals.pedal p).target then l
      else insertEntry
        { act := .move p (s.pedalTarget p), due := ld + 100 * (s.shadow.lookahead - s.shadow.pedalLead p)
          tag := s.ring.lineTag }
        (l.filter (fun e => !isMoveOf p e)) := by
    funext l p
    simp only [aimed, htarget, hpedals, hentry, hring]
  rw [hsteps, hsched] at hs'
  simp only [htarget, hpedals] at hp'
  generalize stagePedals y = z at *
  have hz : z.track.decode = some d := by
    rw [haimed]
    exact hdecode
  have hreport : z.report = y.report := by rw [haimed]
  refine ⟨_, hrow, ?_, hp', hs', ?_⟩
  · simp [State.raisedNone, nextStage, hreport, seen_parts hy]
  · refine frame_of_decode (expr := s.expr) (cue := s.cue) hy (.of_eq (by simp [nextStage, hreport])) ?_
    unfold Aimed at haimed
    generalize z.sched = sched, z.pedals = pedals, z.updates = updates at *
    subst haimed
    apply state_ext
    case clock => simpa [nextStage] using seen_clock_eq hy
    case track => rw [nextStage_track hz, htrack, h4]
    all_goals simp [nextStage, seen_parts hy]

/-! ## Stage 5 (R33, R38, R84) -/

/-- The RELEASE entry of a note-off of key k. -/
def State.releaseEntry (s : State) (k : Key) : Entry :=
  { act := .release k (s.track.serials.get k), due := s.entryDue s.shadow.releaseLead, tag := s.ring.lineTag }

theorem noteOff_inserts {y x : State} {k : Key} (hx : x = { y with sched := x.sched, updates := x.updates })
    (hdue : y.now < y.entryDue y.shadow.releaseLead) (hroom : x.sched.length < 128) :
    noteOff x k =
      if y.track.noteAmong y.lineClosed k && decide ((y.key k).state ≠ .locked) then insertSched (y.releaseEntry k) x
      else x := by
  have hentry : State.releaseEntry x k = y.releaseEntry k := by
    rw [hx]
    rfl
  have hcond : (x.track.noteAmong x.lineClosed k = true ∧ (x.key k).state ≠ .locked) =
      (y.track.noteAmong y.lineClosed k = true ∧ (y.key k).state ≠ .locked) := by
    rw [hx]
    rfl
  have hlater : x.now < (State.releaseEntry x k).due := by
    rw [hentry, hx]
    exact hdue
  simp only [noteOff, hcond, Bool.and_eq_true, decide_eq_true_eq]
  split
  · rw [← hentry]
    exact makeEntry_room hlater hroom (by simp [isMoveOf])
  · rfl

theorem turnOff_eq {s : State} {d : Decode} (hd : s.track.decode = some d) (k : Key) :
    s.track.noteAmong s.lineClosed k =
      d.closed.any (fun slot => decide ((s.track.map.get (Fin.ofNat 112 slot)).fn = k.val + 1)) := by
  have hclosed : s.lineClosed = d.closed := by simp [State.lineClosed, hd]
  rw [hclosed]
  rfl

theorem stageFive_row {s : State} {t ld : Instant} {d : Decode} (upTo : Option Key) (hr : s.rst = false)
    (hd : s.track.decode = some d) (h5 : d.stage = 5) (hm : d.muted = false) (hl : s.clock.lineDue = some ld)
    (hroom : s.sched.length ≤ 40) (hdue : s.at t < ld + 100 * (s.shadow.lookahead - s.shadow.releaseLead)) :
    ∃ s', exec (.decodeStage ⟨t, upTo⟩) s = .next s' ∧ s.raisedNone s' ∧
      s'.sched = (allKeys.filter (fun k => decide (d.reached ≤ k.val) && decide (k.val < lastKey upTo) &&
        (s.track.noteAmong s.lineClosed k && decide ((s.key k).state ≠ .locked)))).foldl
          (fun l k => insertEntry
            { act := .release k (s.track.serials.get k)
              due := ld + 100 * (s.shadow.lookahead - s.shadow.releaseLead), tag := s.ring.lineTag } l) s.sched ∧
      s' = { s.withBook s' with track := { s.track with decode := some (d.up upTo) }, sched := s'.sched } := by
  obtain ⟨y, hy, hdecode, hrow⟩ := decodeStage_row (t := t) hr hd upTo
  have htrack : y.track = s.track := by simp [seen_parts hy]
  have hring : y.ring = s.ring := by simp [seen_parts hy]
  have hsched : y.sched = s.sched := by simp [seen_parts hy]
  have hkey : ∀ k, y.key k = s.key k := by simp [seen_parts hy]
  have hnats := (seen_shadow hy).2.2.2.2.2.2.2.1
  have hentry : y.entryDue y.shadow.releaseLead = ld + 100 * (s.shadow.lookahead - s.shadow.releaseLead) := by
    rw [entryDue_of (by simpa [seen_clock hy] using hl) (hnats _), show y.shadow.releaseLead = s.shadow.releaseLead from hnats _]
  have hlater : y.now < y.entryDue y.shadow.releaseLead := by
    rw [hentry, show y.now = s.at t by simp [seen_parts hy]]
    exact hdue
  have hlen := length_keysFrom_le d.reached (lastKey upTo)
  obtain ⟨hs', hframe⟩ := foldl_inserts (y := y) (f := noteOff) (e := y.releaseEntry)
    (p := fun k => y.track.noteAmong y.lineClosed k && decide ((y.key k).state ≠ .locked)) (fun x k hx hroom => noteOff_inserts hx hlater hroom)
    (keysFrom d.reached (lastKey upTo)) (x := y) rfl (by rw [hsched]; omega)
  have hwork : noteWork d (keysFrom d.reached (lastKey upTo)) y = (keysFrom d.reached (lastKey upTo)).foldl noteOff y := by
    simp [noteWork, h5, hm, stageNoteOffs]
  rw [onDecodeStage_notes hdecode (.inl h5), hwork] at hrow
  have hclosed : y.lineClosed = s.lineClosed := by rw [State.lineClosed, htrack, State.lineClosed]
  have hmake : ∀ k, y.releaseEntry k =
      { act := .release k (s.track.serials.get k), due := ld + 100 * (s.shadow.lookahead - s.shadow.releaseLead)
        tag := s.ring.lineTag } := fun k => by rw [State.releaseEntry, hentry, htrack, hring]
  simp only [keysFrom_filter, hmake, hsched, htrack, hclosed, hkey] at hs'
  generalize (keysFrom d.reached (lastKey upTo)).foldl noteOff y = z at *
  have hz : z.track.decode = some d := by
    rw [hframe]
    exact hdecode
  rw [decodeUp_frame hz] at hrow
  have hreport : z.report = y.report := by rw [hframe]
  refine ⟨_, hrow, ?_, hs', ?_⟩
  · simp [State.raisedNone, hreport, seen_parts hy]
  · refine frame_of_decode (expr := s.expr) (cue := s.cue) (pedals := s.pedals) hy (.of_eq hreport) ?_
    generalize z.sched = sched, z.updates = updates at *
    subst hframe
    apply state_ext
    case clock => simpa using seen_clock_eq hy
    all_goals simp [seen_parts hy]

/-! ## Stage 7 (R35, R39) -/

/-- One map slot's part of the CUE marks. -/
def cueMark (s : State) (slot : Nat) : State :=
  if (s.track.map.get (Fin.ofNat 112 slot)).fn = 108 then raise .cueMark (toWord slot) (signedWord s.track.shift) s else s

theorem cueMarks_eq (s : State) : cueMarks s = s.lineOpened.foldl cueMark s := rfl

theorem foldl_cueMark_quiet {s : State} {l : List Nat} (h : ∀ slot ∈ l, (s.track.map.get (Fin.ofNat 112 slot)).fn ≠ 108) :
    l.foldl cueMark s = s := by
  induction l with
  | nil => rfl
  | cons slot l ih =>
    obtain ⟨hslot, hl⟩ := List.forall_mem_cons.mp h
    rw [List.foldl_cons, cueMark, if_neg hslot]
    exact ih hl

theorem foldl_cueMark_once {s : State} {before after : List Nat} {slot : Nat}
    (hslot : (s.track.map.get (Fin.ofNat 112 slot)).fn = 108)
    (hrest : ∀ x ∈ before ++ after, (s.track.map.get (Fin.ofNat 112 x)).fn ≠ 108) :
    (before ++ slot :: after).foldl cueMark s = raise .cueMark (toWord slot) (signedWord s.track.shift) s := by
  rw [List.foldl_append, foldl_cueMark_quiet fun x hx => hrest x (List.mem_append_left _ hx), List.foldl_cons, cueMark,
    if_pos hslot]
  exact foldl_cueMark_quiet fun x hx => hrest x (List.mem_append_right _ hx)

theorem cueMarks_frame (s : State) :
    OnlyRaised s.report (cueMarks s).report ∧
      cueMarks s = { s with report := (cueMarks s).report, updates := (cueMarks s).updates } := by
  rw [cueMarks_eq]
  generalize s.lineOpened = l
  induction l generalizing s with
  | nil => exact ⟨.refl _, rfl⟩
  | cons slot l ih =>
    obtain ⟨hreport, hframe⟩ := ih (cueMark s slot)
    have hone : OnlyRaised s.report (cueMark s slot).report ∧
        cueMark s slot = { s with report := (cueMark s slot).report, updates := (cueMark s slot).updates } := by
      unfold cueMark
      split
      · refine ⟨raise_onlyRaised _ _ _ _, ?_⟩
        apply state_ext <;> simp
      · exact ⟨.refl _, rfl⟩
    refine ⟨hone.1.trans hreport, ?_⟩
    rw [List.foldl_cons, hframe, hone.2]

theorem stageMarks_frame {s : State} {d : Decode} (hd : s.track.decode = some d) (muted : Bool) :
    nextStage (stageMarks muted s) = { cueMarks s with
      track := { s.track with
        decode := some { d with
          stage := d.stage + 1, reached := 0
          endMark := d.endMark || (s.endOpened && !muted) } } } := by
  unfold stageMarks
  cases s.endOpened && !muted <;> simp [nextStage, updTrack, hd]

theorem stageSeven_row {s : State} {t : Instant} {d : Decode} (hr : s.rst = false) (hd : s.track.decode = some d)
    (h7 : d.stage = 7) :
    ∃ s', exec (.decodeStage ⟨t, none⟩) s = .next s' ∧
      ((∀ slot ∈ d.opened, (s.track.map.get (Fin.ofNat 112 slot)).fn ≠ 108) → s.raisedNone s') ∧
      (∀ before slot after, d.opened = before ++ slot :: after → (s.track.map.get (Fin.ofNat 112 slot)).fn = 108 →
        (∀ x ∈ before ++ after, (s.track.map.get (Fin.ofNat 112 x)).fn ≠ 108) →
        s.raised s' .cueMark (toWord slot) (signedWord s.track.shift)) ∧
      s' = { s.withBook s' with
        track := { s.track with
          decode := some { d with
            stage := 8, reached := 0
            endMark := d.endMark || d.opened.any (fun slot =>
              decide ((s.track.map.get (Fin.ofNat 112 slot)).fn = 107)) && !d.muted } } } := by
  obtain ⟨y, hy, hdecode, hrow⟩ := stage_row (t := t) hr hd (by omega)
  have hwork : stageWork d y = stageMarks d.muted y := by simp [stageWork, h7]
  have htrack : y.track = s.track := by simp [seen_parts hy]
  have hopened : y.lineOpened = d.opened := by simp [State.lineOpened, hdecode]
  rw [hwork, stageMarks_frame hdecode, State.endOpened, hopened, htrack, h7] at hrow
  obtain ⟨hreport, hframe⟩ := cueMarks_frame y
  refine ⟨_, hrow, fun hquiet => ?_, fun before slot after hlist hslot hrest => ?_, ?_⟩
  · have hsame : cueMarks y = y := by
      rw [cueMarks_eq, hopened]
      exact foldl_cueMark_quiet (by rw [htrack]; exact hquiet)
    rw [hsame]
    simp [State.raisedNone, seen_parts hy]
  · have hone : cueMarks y = raise .cueMark (toWord slot) (signedWord s.track.shift) y := by
      rw [cueMarks_eq, hopened, hlist, foldl_cueMark_once (by rw [htrack]; exact hslot) (by rw [htrack]; exact hrest), htrack]
    rw [hone]
    exact raise_raised (y := y) (by simp [seen_parts hy]) (by rw [htrack])
  · refine frame_of_decode (expr := s.expr) (sched := s.sched) (cue := s.cue) (pedals := s.pedals) hy hreport ?_
    generalize cueMarks y = z at *
    generalize z.report = report, z.updates = updates at *
    subst hframe
    apply state_ext
    case clock => simpa using seen_clock_eq hy
    all_goals simp [seen_parts hy]

/-! ## Stage 8 (R153, R155, R52) -/

/-- The channel's block asks for this line's AFTER test, its part in it apart (R153). -/
def State.suitsAfter (s : State) (ch : Channel) (tag : Word) : Prop :=
  s.cueNat ch 0 = 1 ∧ s.cueNat ch 2 = 1 ∧ agrees tag.toNat (s.cueNat ch 3) (s.cueNat ch 4) = true ∧
    (s.cueNat ch 5 = 0xFFFF ∨ s.track.slotOpen (s.cueNat ch 5) = true)

theorem afterChannel_passes {s : State} {ch : Channel} {tag : Word} (h : ¬ s.suitsAfter ch tag ∨ s.cue.flag ch = true)
    (armed : Bool) : afterChannel ch armed tag s = s := by
  refine if_neg fun ⟨hpart, hsuits⟩ => ?_
  rcases h with h | h
  · exact h hsuits
  · simp [State.takesPart, h] at hpart

theorem afterChannel_matches {s : State} {ch : Channel} {tag : Word} (hwatch : s.watching = true)
    (hq : s.shadow.sequential = false) (hflag : s.cue.flag ch = false) (h : s.suitsAfter ch tag) (armed : Bool) :
    afterChannel ch armed tag s = cueMatch ch .after tag s :=
  if_pos ⟨(takesPart_iff hwatch hflag).mpr (by simp [hq]), h⟩

/-- A match of an AFTER test: noted, with a HOLD pending for the boundary in PLAYING (R52, R155). -/
theorem cueMatch_after {s : State} (hq : s.shadow.sequential = false) (ch : Channel) (tag : Word) :
    cueMatch ch .after tag s =
      if s.cueNat ch 1 = 1 ∧ s.clock.state = .playing then pendHold (cueCause ch) (matchNoted ch tag s)
      else matchNoted ch tag s := by
  have hholds : s.actionHolds ch = true ↔ s.cueNat ch 1 = 1 := by cases ch <;> simp [State.actionHolds, hq]
  by_cases h : s.cueNat ch 1 = 1
  · rw [cueMatch_holds (hholds.mpr h), cueHold]
    simp [h]
  · rw [cueMatch_notes (by simpa using (not_congr hholds).mpr h), if_neg (fun hh => h hh.1)]

theorem cueMatch_after_parts {s : State} (hq : s.shadow.sequential = false) (ch : Channel) (tag : Word) :
    (cueMatch ch .after tag s).report = (matchNoted ch tag s).report ∧
      (cueMatch ch .after tag s).cue = s.cue.matched ch false ∧
      (cueMatch ch .after tag s).clock = { s.clock with
        pendingHold := if s.cueNat ch 1 = 1 ∧ s.clock.state = .playing then s.clock.pendingHold.or (some (cueCause ch))
          else s.clock.pendingHold } := by
  rw [cueMatch_after hq, ← hq]
  split <;> simp [matchNoted_cue, pendHold]

theorem suitsAfter_congr {x y : State} (hwords : x.shadow.words = y.shadow.words) (ht : x.track = y.track) (ch : Channel)
    (tag : Word) : x.suitsAfter ch tag ↔ y.suitsAfter ch tag := by
  unfold State.suitsAfter State.cueNat Shadow.cueWord Shadow.word
  rw [hwords, ht]

/-- With one channel to match, the test is that channel's match. -/
theorem afterTest_alone {s : State} {ch : Channel} {tag : Word} (hwatch : s.watching = true)
    (hq : s.shadow.sequential = false) (hflag : s.cue.flag ch = false) (h : s.suitsAfter ch tag)
    (halone : ∀ other, other ≠ ch → ¬ s.suitsAfter other tag ∨ s.cue.flag other = true) :
    afterTest tag s = cueMatch ch .after tag s := by
  unfold afterTest
  cases ch with
  | a =>
    rw [afterChannel_matches hwatch hq hflag h]
    apply afterChannel_passes
    rw [suitsAfter_congr (y := s) (by simp) (by simp), (cueMatch_after_parts hq .a tag).2.1]
    exact halone .b (by decide)
  | b =>
    rw [afterChannel_passes (halone .a (by decide))]
    exact afterChannel_matches hwatch hq hflag h _

theorem stageEight_row {s : State} {t : Instant} {d : Decode} (hr : s.rst = false) (hd : s.track.decode = some d)
    (h8 : d.stage = 8) (hm : d.muted = false) :
    ∃ y, Seen s t y ∧ y.track.decode = some d ∧
      exec (.decodeStage ⟨t, none⟩) s = .next (drivePins (nextStage (afterTest s.ring.lineTag y))) := by
  obtain ⟨y, hy, hdecode, hrow⟩ := stage_row (t := t) hr hd (by omega)
  have hring : y.ring = s.ring := by simp [seen_parts hy]
  have hwork : stageWork d y = afterTest y.ring.lineTag y := by simp [stageWork, h8, hm]
  exact ⟨y, hy, hdecode, by rw [hrow, hwork, hring]⟩

/-- A row of a stage that left all but the decode, the cue flags, the clock and the reports. -/
theorem frame_of_stage {s y z : State} {t : Instant} {d : Decode} {cue : Cue} {clock : Clock} (hy : Seen s t y)
    (hd : y.track.decode = some d) (hreport : OnlyRaised y.report z.report) (hcue : z.cue = cue) (hclock : z.clock = clock)
    (hz : z = { y with cue := z.cue, clock := z.clock, report := z.report, updates := z.updates }) :
    drivePins (nextStage z) = { s.withBook (drivePins (nextStage z)) with
      track := { s.track with decode := some { d with stage := d.stage + 1, reached := 0 } }
      cue := cue, clock := clock } := by
  subst hcue hclock
  have htrack : y.track = s.track := by simp [seen_parts hy]
  have hdz : z.track.decode = some d := by
    rw [hz]
    exact hd
  refine frame_of_decode (expr := s.expr) (sched := s.sched) (pedals := s.pedals) hy (by simpa [nextStage] using hreport) ?_
  have hnext := nextStage_track hdz
  generalize z.cue = cue, z.clock = clock, z.report = report, z.updates = updates at *
  subst hz
  apply state_ext
  case track => rw [hnext, htrack]
  all_goals simp [nextStage, seen_parts hy]

end Sys2Proof.Machine

open Sys2Proof Sys2Proof.Machine

/-- Settles O31: a row per stage (`stageTwo_row` to `stageEight_row`). -/
theorem stagesTwoAndThreeConfirmAndHandOver : Obligations.stages_two_and_three_confirm_and_hand_over := by
  intro t d s hr hd
  refine ⟨?two, ?three, ?four, ?five, ?seven, ?eight, ?muted⟩
  case two =>
    intro h2
    obtain ⟨s', hrow, hrows, hframe⟩ := stageTwo_row (t := t) hr hd h2
    refine ⟨s', _, _, hrow, fun slot => ?_, hframe⟩
    have hslot : s'.track.rows.get slot = rowAfter s.ring s.track slot.val := by rw [hrows, Bank.get_tabulate]
    rw [hslot]
    refine ⟨rowAfter_eq _ _ _, ?_, ?_⟩ <;> rw [mem_slotsTurning] <;> simp
  case three =>
    intro h3
    obtain ⟨s', hrow, hsoft, hbass, htreble, hframe⟩ := stageThree_row (t := t) hr hd h3
    refine ⟨s', hrow, hsoft, fun first old new hmem => ?_, hframe⟩
    simp only [List.mem_cons, Prod.mk.injEq, List.not_mem_nil, or_false] at hmem
    obtain ⟨rfl, rfl, rfl⟩ | ⟨rfl, rfl, rfl⟩ := hmem
    · rw [hbass]
      exact sideInputs_fields _ _ _ _
    · rw [htreble]
      exact sideInputs_fields _ _ _ _
  case four =>
    intro ld h4 hm hl hroom target due hdue
    have htarget : target = s.pedalTarget := by
      funext p
      cases p <;> rfl
    rw [htarget] at hdue ⊢
    exact stageFour_row hr hd h4 hm hl hroom hdue
  case five =>
    intro ld upTo h5 hm hl hroom hdue last turn
    obtain ⟨s', hrow, hquiet, hsched, hframe⟩ := stageFive_row upTo hr hd h5 hm hl hroom hdue
    refine ⟨s', hrow, hquiet, ?_, ?_⟩
    · have hlast : lastKey upTo = last := by cases upTo <;> rfl
      rw [hsched]
      simp only [turnOff_eq hd, hlast, turn, Bool.and_assoc]
    · cases upTo with
      | none => simpa [Decode.up, h5] using hframe
      | some k => exact hframe
  case seven =>
    intro h7
    exact stageSeven_row hr hd h7
  case eight =>
    intro h8 hm after sameClock suits
    obtain ⟨y, hy, hdecode, hrow⟩ := stageEight_row (t := t) hr hd h8 hm
    have hsuits : ∀ ch, y.suitsAfter ch s.ring.lineTag ↔ suits ch := by
      intro ch
      rw [suitsAfter_congr (y := s) (seen_shadow hy).2.1 (by simp [seen_parts hy])]
      simp [State.suitsAfter, suits, Track.slotOpen]
    have hflags : y.cue = s.cue := by simp [seen_parts hy]
    have hclock := seen_clock_eq hy
    refine ⟨fun hnone => ?_, fun ch hwatch hq hs hflag halone => ?_⟩
    · have hidle : ∀ ch, ¬ y.suitsAfter ch s.ring.lineTag ∨ y.cue.flag ch = true := by
        intro ch
        rw [hsuits, hflags]
        exact hnone ch
      rw [afterTest, afterChannel_passes (hidle .a), afterChannel_passes (hidle .b)] at hrow
      refine ⟨_, hrow, by simp [State.raisedNone, nextStage, seen_parts hy], ?_⟩
      have hframe := frame_of_stage hy hdecode (.refl _) hflags hclock rfl
      rwa [h8] at hframe
    · have hyq : y.shadow.sequential = false := by simpa [Shadow.sequential, seen_shadow hy] using hq
      have hywatch : y.watching = true := by
        rw [State.watching, (seen_clock hy).1, (seen_shadow hy).1]
        exact hwatch
      have halone' : ∀ other, other ≠ ch → ¬ y.suitsAfter other s.ring.lineTag ∨ y.cue.flag other = true := by
        intro other ho
        rw [hsuits, hflags]
        exact halone other ho
      rw [afterTest_alone hywatch hyq (by rw [hflags]; exact hflag) ((hsuits ch).mpr hs) halone'] at hrow
      obtain ⟨hreport, hcue, hpend⟩ := cueMatch_after_parts hyq ch s.ring.lineTag
      have hword : y.cueNat ch 1 = s.cueNat ch 1 := (seen_shadow hy).2.2.2.2.2.2.2.1 _
      have hraised := matchNoted_raised (s := s) (y := y) ch s.ring.lineTag (by simp [seen_parts hy]) (by simp [seen_parts hy])
      have honly := matchNoted_onlyRaised ch s.ring.lineTag y
      have hrest : cueMatch ch .after s.ring.lineTag y = { y with
          cue := (cueMatch ch .after s.ring.lineTag y).cue, clock := (cueMatch ch .after s.ring.lineTag y).clock
          report := (cueMatch ch .after s.ring.lineTag y).report
          updates := (cueMatch ch .after s.ring.lineTag y).updates } := by
        apply state_ext <;> simp
      refine ⟨_, hrow, ?_, ?_⟩
      · have hnumber : channelWord ch = if ch = .a then 1 else 2 := by cases ch <;> rfl
        rw [← hnumber]
        exact raised_congr hraised (by simp [outstanding_eq, nextStage, hreport])
      · have hframe := frame_of_stage hy hdecode (by rw [hreport]; exact honly) hcue hpend hrest
        rw [h8] at hframe
        refine hframe.trans ?_
        have hcause : cueCause ch = if ch = .a then .cueA else .cueB := by cases ch <;> rfl
        apply state_ext
        case clock => apply clock_ext <;> simp [nextStage, sameClock, hpend, hword, hcause, seen_clock hy, seen_owed hy]
        case cue => cases ch <;> simp [nextStage, hcue, hflags, Cue.matched]
        all_goals rfl
  case muted =>
    intro hm hstage
    obtain ⟨y, hy, hdecode, hrow⟩ := stage_row (t := t) hr hd (by omega)
    have hwork : stageWork d y = y := by rcases hstage with h | h | h <;> simp [stageWork, noteWork, h, hm]
    rw [hwork] at hrow
    exact ⟨_, hrow, by simp [State.raisedNone, nextStage, seen_parts hy],
      frame_of_stage hy hdecode (.refl _) (by simp [seen_parts hy]) (seen_clock_eq hy) rfl⟩
end

section
/-! PROOF. Stage 6, the drive level, and the capacity of the schedule (R34, R66, R78, R84 to R89). -/

namespace Sys2Proof.Machine

/-! ## Note-ons (R32, R34, R38, R39) -/

/-- The STRIKE entry of a note-on of key k whose serial has not risen yet. -/
def State.noteEntry (s : State) (k : Key) : Entry :=
  { act := .strike k (s.expr.driveLevel k) (s.track.serials.get k + 1)
    due := s.entryDue (s.curveRow (s.expr.driveLevel k)).lead, tag := s.ring.lineTag }

/-- What note-ons move: the note serials and the schedule. -/
def Noted (y z : State) : Prop :=
  z = { y with track := { y.track with serials := z.track.serials }, sched := z.sched, updates := z.updates }

theorem Noted.refl (s : State) : Noted s s := rfl

theorem Noted.reads {y x : State} (hx : Noted y x) (k : Key) :
    x.now = y.now ∧ x.track.noteAmong x.lineOpened k = y.track.noteAmong y.lineOpened k ∧ x.key k = y.key k := by
  rw [hx]
  exact ⟨rfl, rfl, rfl⟩

/-- The entry that key k gets, its serial risen, is the one its serial before promised. -/
theorem strikeEntry_bumped {y x : State} {k : Key} (hx : Noted y x) (hk : x.track.serials.get k = y.track.serials.get k) :
    (bumpSerial k x).strikeEntry k = y.noteEntry k := by
  have hserial : (bumpSerial k x).track.serials.get k = y.track.serials.get k + 1 := by
    simp [bumpSerial, hk]
  rw [State.strikeEntry, hserial, hx]
  rfl

/-- The keys that get an entry at their turn. -/
def State.strikes (s : State) (muted : Bool) (k : Key) : Bool :=
  s.track.noteAmong s.lineOpened k && (!muted && decide ((s.key k).state ≠ .locked))

theorem noteOn_noted {y x : State} {k : Key} {muted : Bool} (hx : Noted y x)
    (hk : x.track.serials.get k = y.track.serials.get k)
    (hdue : y.strikes muted k = true → y.now < (y.noteEntry k).due) (hroom : x.sched.length < 128) :
    (noteOn muted x k).sched = (if y.strikes muted k then insertEntry (y.noteEntry k) x.sched else x.sched) ∧
      (noteOn muted x k).track.serials =
        (if y.track.noteAmong y.lineOpened k then x.track.serials.modify k (· + 1) else x.track.serials) ∧
      Noted y (noteOn muted x k) := by
  obtain ⟨hnow, hturn, hkey⟩ := hx.reads k
  have hbump : Noted y (bumpSerial k x) := by
    rw [Noted, hx]
    rfl
  unfold noteOn
  rw [hturn]
  cases ht : y.track.noteAmong y.lineOpened k with
  | false => exact ⟨by simp [State.strikes, ht], rfl, hx⟩
  | true =>
    by_cases hquiet : muted = true ∨ (y.key k).state = .locked
    · have hnone : y.strikes muted k = false := by
        rcases hquiet with h | h <;> simp [State.strikes, h]
      rw [if_pos rfl, if_pos (by rw [(hbump.reads k).2.2]; exact hquiet), hnone]
      exact ⟨rfl, rfl, hbump⟩
    · have hsome : y.strikes muted k = true := by
        obtain ⟨hm, hl⟩ := not_or.mp hquiet
        simp [State.strikes, ht, hm, hl]
      have hlater : (bumpSerial k x).now < ((bumpSerial k x).strikeEntry k).due := by
        rw [strikeEntry_bumped hx hk, (hbump.reads k).1]
        exact hdue hsome
      have hmade : makeEntry ((bumpSerial k x).strikeEntry k) (bumpSerial k x) =
          insertSched (y.noteEntry k) (bumpSerial k x) := by
        rw [makeEntry_room hlater hroom (by simp [isMoveOf, State.strikeEntry]), strikeEntry_bumped hx hk]
      rw [if_pos rfl, if_neg (by rw [(hbump.reads k).2.2]; exact hquiet), hmade, hsome]
      refine ⟨rfl, rfl, ?_⟩
      rw [Noted, insertSched_frame, hbump]

theorem foldl_noteOn {y : State} {muted : Bool} {keys : List Key} (hnodup : keys.Nodup)
    (hdue : ∀ k ∈ keys, y.strikes muted k = true → y.now < (y.noteEntry k).due) {x : State} (hx : Noted y x)
    (hkeys : ∀ k ∈ keys, x.track.serials.get k = y.track.serials.get k) (hroom : x.sched.length + keys.length ≤ 128) :
    (keys.foldl (noteOn muted) x).sched =
        (keys.filter (y.strikes muted)).foldl (fun l k => insertEntry (y.noteEntry k) l) x.sched ∧
      (∀ k, (keys.foldl (noteOn muted) x).track.serials.get k =
        if k ∈ keys ∧ y.track.noteAmong y.lineOpened k = true then y.track.serials.get k + 1 else x.track.serials.get k) ∧
      Noted y (keys.foldl (noteOn muted) x) := by
  induction keys generalizing x with
  | nil => exact ⟨rfl, by simp, hx⟩
  | cons k keys ih =>
    rw [List.length_cons] at hroom
    obtain ⟨hfresh, hnodup⟩ := List.nodup_cons.mp hnodup
    have hk := hkeys k (by simp)
    obtain ⟨hsched, hserials, hnext⟩ := noteOn_noted hx hk (hdue k (by simp)) (by omega)
    have hget : ∀ j, (noteOn muted x k).track.serials.get j =
        if j = k ∧ y.track.noteAmong y.lineOpened k = true then y.track.serials.get k + 1
        else x.track.serials.get j := by
      intro j
      rw [hserials]
      by_cases hj : j = k
      · subst hj
        split <;> simp_all
      · split <;> simp_all [Bank.get_modify]
    have hlen : (noteOn muted x k).sched.length ≤ x.sched.length + 1 := by
      rw [hsched]
      split <;> simp [length_insertEntry]
    obtain ⟨hs, hg, hf⟩ := ih hnodup (fun j hj => hdue j (by simp [hj])) hnext (fun j hj => by
      have hjk : j ≠ k := fun h => hfresh (h ▸ hj)
      rw [hget, if_neg (by simp [hjk])]
      exact hkeys j (by simp [hj])) (by omega)
    refine ⟨?_, fun j => ?_, hf⟩
    · rw [List.foldl_cons, hs, hsched]
      cases h : y.strikes muted k with
      | false => rw [List.filter_cons_of_neg (by simp [h])]; rfl
      | true => rw [List.filter_cons_of_pos h]; rfl
    · rw [List.foldl_cons, hg, hget]
      by_cases hj : j = k
      · subst hj
        simp [hfresh]
      · simp [hj]

theorem turnOn_eq {s : State} {d : Decode} (hd : s.track.decode = some d) (k : Key) :
    s.track.noteAmong s.lineOpened k =
      d.opened.any (fun slot => decide ((s.track.map.get (Fin.ofNat 112 slot)).fn = k.val + 1)) := by
  have hopened : s.lineOpened = d.opened := by simp [State.lineOpened, hd]
  rw [hopened]
  rfl

theorem mem_keysFrom {lo hi : Nat} {k : Key} : k ∈ keysFrom lo hi ↔ lo ≤ k.val ∧ k.val < hi := by
  simp [keysFrom, mem_allKeys]

theorem keysFrom_nodup (lo hi : Nat) : (keysFrom lo hi).Nodup := allKeys_nodup.filter _

theorem noteEntry_of {s y : State} {t ld : Instant} (hy : Seen s t y) (hl : s.clock.lineDue = some ld) (k : Key) :
    y.noteEntry k =
      { act := .strike k (s.expr.driveLevel k) (s.track.serials.get k + 1)
        due := ld + 100 * (s.shadow.lookahead - (s.curveRow (s.expr.driveLevel k)).lead), tag := s.ring.lineTag } := by
  have hexpr : y.expr = s.expr := by simp [seen_parts hy]
  have htrack : y.track = s.track := by simp [seen_parts hy]
  have hring : y.ring = s.ring := by simp [seen_parts hy]
  have hnats := (seen_shadow hy).2.2.2.2.2.2.2.1
  have hcurve : ∀ level, y.curveRow level = s.curveRow level := fun level => by
    rw [hy]
    rfl
  rw [State.noteEntry, hexpr, htrack, hring, hcurve, entryDue_of (by simpa [seen_clock hy] using hl) (hnats _)]

/-- The row of stage 6, or of a part of it. -/
theorem stageSix_row {s : State} {t ld : Instant} {d : Decode} (upTo : Option Key) (hr : s.rst = false)
    (hd : s.track.decode = some d) (h6 : d.stage = 6) (hl : s.clock.lineDue = some ld) (hroom : s.sched.length ≤ 40)
    (hdue : ∀ k, k ∈ keysFrom d.reached (lastKey upTo) → s.track.noteAmong s.lineOpened k = true →
      (s.key k).state ≠ .locked → s.at t < ld + 100 * (s.shadow.lookahead - (s.curveRow (s.expr.driveLevel k)).lead)) :
    ∃ s', exec (.decodeStage ⟨t, upTo⟩) s = .next s' ∧ s.raisedNone s' ∧
      (∀ k, s'.track.serials.get k =
        if k ∈ keysFrom d.reached (lastKey upTo) ∧ s.track.noteAmong s.lineOpened k = true then
          s.track.serials.get k + 1
        else s.track.serials.get k) ∧
      s'.sched = ((keysFrom d.reached (lastKey upTo)).filter (s.strikes d.muted)).foldl
        (fun l k => insertEntry
          { act := .strike k (s.expr.driveLevel k) (s.track.serials.get k + 1)
            due := ld + 100 * (s.shadow.lookahead - (s.curveRow (s.expr.driveLevel k)).lead)
            tag := s.ring.lineTag } l) s.sched ∧
      s' = { s.withBook s' with
        track := { s.track with serials := s'.track.serials, decode := some (d.up upTo) }, sched := s'.sched } := by
  obtain ⟨y, hy, hdecode, hrow⟩ := decodeStage_row (t := t) hr hd upTo
  have htrack : y.track = s.track := by simp [seen_parts hy]
  have hsched : y.sched = s.sched := by simp [seen_parts hy]
  have hopened : y.lineOpened = s.lineOpened := by rw [State.lineOpened, htrack, State.lineOpened]
  have hstrikes : y.strikes d.muted = s.strikes d.muted := by
    funext k
    rw [State.strikes, htrack, hopened, show y.key k = s.key k by simp [seen_parts hy]]
    rfl
  have hnow : y.now = s.at t := by simp [seen_parts hy]
  have hlater : ∀ k ∈ keysFrom d.reached (lastKey upTo), y.strikes d.muted k = true → y.now < (y.noteEntry k).due := by
    intro k hk hs
    rw [hstrikes] at hs
    simp only [State.strikes, Bool.and_eq_true, decide_eq_true_eq] at hs
    rw [noteEntry_of hy hl, hnow]
    exact hdue k hk hs.1 hs.2.2
  have hlen := length_keysFrom_le d.reached (lastKey upTo)
  obtain ⟨hs', hserials, hframe⟩ := foldl_noteOn (keysFrom_nodup _ _) hlater (.refl y) (fun _ _ => rfl)
    (by rw [hsched]; omega)
  have hwork : noteWork d (keysFrom d.reached (lastKey upTo)) y =
      (keysFrom d.reached (lastKey upTo)).foldl (noteOn d.muted) y := by
    simp [noteWork, h6, stageNoteOns]
  rw [onDecodeStage_notes hdecode (.inr h6), hwork] at hrow
  simp only [noteEntry_of hy hl, hstrikes, hsched, htrack, hopened] at hs' hserials
  generalize (keysFrom d.reached (lastKey upTo)).foldl (noteOn d.muted) y = z at *
  have hz : z.track.decode = some d := by
    rw [hframe]
    exact hdecode
  have hreport : z.report = y.report := by rw [hframe]
  rw [decodeUp_frame hz] at hrow
  refine ⟨_, hrow, ?_, hserials, hs', ?_⟩
  · simp [State.raisedNone, hreport, seen_parts hy]
  · refine frame_of_decode (expr := s.expr) (cue := s.cue) (pedals := s.pedals) hy (.of_eq hreport) ?_
    unfold Noted at hframe
    generalize z.track.serials = serials, z.sched = sched, z.updates = updates at *
    subst hframe
    apply state_ext
    case clock => simpa using seen_clock_eq hy
    all_goals simp [seen_parts hy]

/-! ## The drive level (R66, R75 to R78) -/

theorem clampDrive_cases (z : Int) :
    (z < 1 → clampDrive z = 1) ∧ (1 ≤ z → z ≤ 127 → (clampDrive z : Int) = z) ∧ (127 < z → clampDrive z = 127) := by
  unfold clampDrive
  refine ⟨fun h => if_pos h, fun h1 h2 => ?_, fun h => ?_⟩
  · rw [if_neg (by omega), if_neg (by omega)]
    omega
  · rw [if_neg (by omega), if_pos h]

theorem driveLevel_eq {e : Expression} {c : ExprCopies} {m : Sample} (hc : e.copies = some c) (hm : e.sample = some m)
    (k : Key) {i : Fin 32} (hi : (if isTreble c m k then e.treble else e.bass).level / 16 = i.val) :
    e.driveLevel k = clampDrive (((if e.soft then m.softMap.get i else m.normal.get i : Nat) : Int) +
      ((if (if isTreble c m k then e.treble else e.bass).accent then
        (if isTreble c m k then m.accentTreble else m.accentBass) else 0 : Nat) : Int) + (m.voices.get k).trim) := by
  simp [Expression.driveLevel, hc, hm, hi]

/-! ## A place in the schedule (R85) -/

theorem insertEntry_sorted {e : Entry} {l : List Entry} (h : l.Pairwise fun x y => x.due ≤ y.due) :
    insertEntry e l = l.filter (fun x => decide (x.due ≤ e.due)) ++ e :: l.filter (fun x => decide (e.due < x.due)) := by
  induction l with
  | nil => rfl
  | cons x l ih =>
    obtain ⟨hx, hl⟩ := List.pairwise_cons.mp h
    rw [insertEntry]
    by_cases hle : x.due ≤ e.due
    · rw [if_pos hle, ih hl, List.filter_cons_of_pos (by simpa using hle), List.filter_cons_of_neg (by simpa using hle)]
      rfl
    · have hlater : ∀ y ∈ x :: l, e.due < y.due := by
        intro y hy
        rcases List.mem_cons.mp hy with rfl | hy
        · exact Nat.not_le.mp hle
        · exact Nat.lt_of_lt_of_le (Nat.not_le.mp hle) (hx y hy)
      rw [if_neg hle, List.filter_eq_nil_iff.mpr fun y hy => by simpa using hlater y hy,
        List.filter_eq_self.mpr fun y hy => by simpa using hlater y hy]
      rfl

/-! ## A full schedule (R88, R89) -/

/-- The latest STRIKE so far, and one more entry. -/
def laterStrike (best : Option Entry) (e : Entry) : Option Entry :=
  if isStrike e then
    match best with
    | none => some e
    | some b => if b.due ≤ e.due then some e else best
  else best

theorem latestStrike_eq (l : List Entry) : latestStrike l = l.foldl laterStrike none := rfl

theorem foldl_laterStrike_mem {p : Entry → Prop} {l : List Entry} (hl : ∀ x ∈ l, isStrike x = true → p x)
    {best : Option Entry} (hb : ∀ b ∈ best, p b) : ∀ b ∈ l.foldl laterStrike best, p b := by
  induction l generalizing best with
  | nil => exact hb
  | cons x l ih =>
    obtain ⟨hx, hl⟩ := List.forall_mem_cons.mp hl
    refine ih hl fun b hmem => ?_
    unfold laterStrike at hmem
    split at hmem
    · next hs =>
      split at hmem
      · cases hmem
        exact hx hs
      · split at hmem
        · cases hmem
          exact hx hs
        · exact hb b hmem
    · exact hb b hmem

theorem foldl_laterStrike_earlier {b : Entry} {l : List Entry} (hl : ∀ x ∈ l, isStrike x = true → x.due < b.due) :
    l.foldl laterStrike (some b) = some b := by
  induction l with
  | nil => rfl
  | cons x l ih =>
    obtain ⟨hx, hl⟩ := List.forall_mem_cons.mp hl
    have hstep : laterStrike (some b) x = some b := by
      unfold laterStrike
      split
      · next hs => exact if_neg (Nat.not_le.mpr (hx hs))
      · rfl
    rw [List.foldl_cons, hstep]
    exact ih hl

theorem latestStrike_of {before after : List Entry} {b : Entry} (hb : isStrike b = true)
    (hbefore : ∀ x ∈ before, isStrike x = true → x.due ≤ b.due)
    (hafter : ∀ x ∈ after, isStrike x = true → x.due < b.due) : latestStrike (before ++ b :: after) = some b := by
  have hbest := foldl_laterStrike_mem (p := fun x => x.due ≤ b.due) hbefore (best := none) (by simp)
  rw [latestStrike_eq, List.foldl_append, List.foldl_cons]
  have hstep : laterStrike (before.foldl laterStrike none) b = some b := by
    unfold laterStrike
    rw [if_pos hb]
    split
    · rfl
    · next c hc => exact if_pos (hbest c hc)
  rw [hstep, foldl_laterStrike_earlier hafter]

theorem latestStrike_none {l : List Entry} (h : ∀ x ∈ l, isStrike x = false) : latestStrike l = none := by
  have hnone := foldl_laterStrike_mem (p := fun _ => False) (l := l) (fun x hx hs => by simp [h x hx] at hs) (best := none)
    (by simp)
  rw [latestStrike_eq]
  exact Option.eq_none_iff_forall_not_mem.mpr hnone

theorem eraseLast_of {before after : List Entry} {b : Entry} (h : b ∉ after) :
    eraseLast b (before ++ b :: after) = before ++ after := by
  simp [eraseLast, List.erase_append_right, h]

theorem makeIntoFull_displaces {e b : Entry} {s : State} (h : latestStrike s.sched = some b) :
    makeIntoFull e s = insertSched e (reportFull b (setSched (eraseLast b s.sched) s)) := by
  simp [makeIntoFull, h]

theorem makeEntry_full {e : Entry} {s : State} (hdue : s.now < e.due) (hfull : 128 ≤ s.sched.length)
    (hs : isStrike e = false) (hmove : ∀ p, isMoveOf p e = true → s.sched.any (isMoveOf p) = false) :
    makeEntry e s = makeIntoFull e s := by
  rw [makeEntry, if_neg (Nat.not_le.mpr hdue)]
  cases hact : e.act with
  | strike k level serial => simp [isStrike, hact] at hs
  | release k serial => exact if_neg (Nat.not_lt.mpr hfull)
  | move p depth =>
    have hnone := hmove p (by simp [isMoveOf, hact])
    simp only [hnone]
    exact if_neg (Nat.not_lt.mpr hfull)

end Sys2Proof.Machine

open Sys2Proof Sys2Proof.Machine

/-- Settles O32: the row of stage 6 (`stageSix_row`), the clamp, the sorted insertion, and the capacity rules of `makeEntry`. -/
theorem noteOnRaisesTheSerialAndMakesAStrike : Obligations.note_on_raises_the_serial_and_makes_a_strike := by
  refine ⟨?stage, ?level, fun e l h => insertEntry_sorted h, ?capacity⟩
  case stage =>
    intro t ld upTo d s hr hd h6 hl hroom last turn due hdue
    have hlast : lastKey upTo = last := by cases upTo <;> rfl
    have hturn : ∀ k, turn k = true ↔ k ∈ keysFrom d.reached (lastKey upTo) ∧ s.track.noteAmong s.lineOpened k = true := by
      intro k
      rw [mem_keysFrom, hlast, turnOn_eq hd]
      simp [turn, and_assoc]
    obtain ⟨s', hrow, hquiet, hserials, hsched, hframe⟩ := stageSix_row upTo hr hd h6 hl hroom
      fun k hk hn => hdue k ((hturn k).mpr ⟨hk, hn⟩)
    refine ⟨s', hrow, hquiet, fun k => ?_, ?_, ?_⟩
    · rw [hserials]
      simp only [hturn]
    · rw [hsched, keysFrom_filter]
      cases hm : d.muted with
      | true => simp [State.strikes, show allKeys.filter (fun _ => false) = [] from List.filter_eq_nil_iff.mpr (by simp)]
      | false =>
        simp only [State.strikes, turnOn_eq hd, hlast, turn, Bool.and_assoc, Bool.not_false, Bool.true_and]
        rfl
    · cases upTo with
      | none => simpa [Decode.up, h6] using hframe
      | some k => exact hframe
  case level =>
    intro e c m k hc hm treble side i hi z
    have htreble : isTreble c m k = treble := by
      unfold isTreble
      cases h : (m.voices.get k).side <;> simp only [treble, h] <;> rfl
    have hz : e.driveLevel k = clampDrive z := by
      rw [driveLevel_eq hc hm k (i := i) (by rw [htreble]; exact hi), htreble]
      cases h : e.soft <;> simp [z, side, h]
    rw [hz]
    exact clampDrive_cases z
  case capacity =>
    intro e s full raisedBy
    refine ⟨fun hdue => ⟨?_, ?_, ?_⟩, fun hdue => ⟨fun hroom hmove => ?_, ?_, ?_, fun hfull hs hmove => ⟨?_, fun hnone => ?_⟩⟩⟩
    · intro p depth hact
      rw [makeEntry, if_pos hdue]
      simp only [makeDueEntry, dispatchEntry, hact]
      rfl
    · intro k serial hact
      rw [makeEntry, if_pos hdue]
      simp only [makeDueEntry, dispatchEntry, hact]
    · intro k level serial hact
      rw [makeEntry, if_pos hdue]
      simp only [makeDueEntry, dispatchEntry, hact]
      rfl
    · rw [makeEntry_room hdue (Nat.not_le.mp hroom) hmove]
      exact ⟨rfl, rfl⟩
    · intro p depth hact hany
      rw [makeEntry_replaces hact hdue hany]
      exact ⟨rfl, rfl⟩
    · intro k level serial hact hfull
      have hmade : makeEntry e s = reportFull e s := by
        rw [makeEntry, if_neg (Nat.not_le.mpr hdue), hact]
        exact if_neg (Nat.not_lt.mpr hfull)
      rw [hmade, reportFull, strikeSubject, hact]
      exact ⟨by simp, raise_raised rfl rfl⟩
    · intro before b after k level serial hlist hact hbefore hafter
      have hb : isStrike b = true := by simp [isStrike, hact]
      have hmem : b ∉ after := fun h => Nat.lt_irrefl _ (hafter b h hb)
      rw [makeEntry_full hdue hfull hs hmove, makeIntoFull_displaces (hlist ▸ latestStrike_of hb hbefore hafter), hlist, eraseLast_of hmem]
      simp only [reportFull, strikeSubject, hact]
      exact ⟨by simp [insertSched], raise_raised rfl rfl⟩
    · rw [makeEntry_full hdue hfull hs hmove, makeIntoFull, latestStrike_none hnone]
      cases hact : e.act with
      | strike k level serial => simp [isStrike, hact] at hs
      | release k serial =>
        simp only [dispatchEntry, hact]
        refine ⟨by simp, fun k' serial' h => ?_, by simp⟩
        cases h
        exact ⟨by simp, raise_raised (by simp) (by simp)⟩
      | move p depth =>
        simp only [dispatchEntry, hact]
        refine ⟨by simp, by simp, fun p' depth' h => ?_⟩
        cases h
        exact ⟨rfl, by simp [State.raisedNone]⟩
end

section
/-! PROOF. The success of validation (R174, R117, R147). -/

namespace Sys2Proof.Machine

/-! ## The keys in line with their SOURCE (R117) -/

theorem keyAligned_congr {x s : State} {k : Key} (h : x.key k = s.key k) (recovery : Nat) (now : Instant) (w : Word) :
    x.keyAligned recovery now k w = s.keyAligned recovery now k w := by
  unfold State.keyAligned
  rw [h]

/-- One key's part of the alignment. -/
def alignKey (s : State) (k : Key) : State := applyKeyWord k (s.shadow.word (offKeyTable k)) s

theorem alignKeys_eq (s : State) : alignKeys s = allKeys.foldl alignKey s := rfl

theorem foldl_alignKey_key {l : List Key} (hl : l.Nodup) (s : State) (k : Key) :
    (l.foldl alignKey s).key k =
      if k ∈ l then s.keyAligned s.shadow.recovery s.now k (s.shadow.word (offKeyTable k)) else s.key k := by
  induction l generalizing s with
  | nil => simp
  | cons j l ih =>
    obtain ⟨hfresh, hl⟩ := List.nodup_cons.mp hl
    have hshadow : (alignKey s j).shadow = s.shadow := by simp [alignKey]
    have hnow : (alignKey s j).now = s.now := by simp [alignKey]
    have hkey : (alignKey s j).key k = _ := applyKeyWord_key j (s.shadow.word (offKeyTable j)) s k
    rw [List.foldl_cons, ih hl, hshadow, hnow]
    by_cases hk : k = j
    · subst hk
      rw [if_pos rfl] at hkey
      rw [if_neg hfresh, if_pos (by simp)]
      exact hkey
    · rw [if_neg hk] at hkey
      rw [keyAligned_congr (s := s) hkey]
      simp only [List.mem_cons, hk, false_or]
      split
      · rfl
      · exact hkey

theorem alignKeys_key (s : State) (k : Key) :
    (alignKeys s).key k = s.keyAligned s.shadow.recovery s.now k (s.shadow.word (offKeyTable k)) := by
  rw [alignKeys_eq, foldl_alignKey_key allKeys_nodup, if_pos (mem_allKeys k)]

theorem alignKeys_sched_nil {s : State} (h : s.sched = []) : (alignKeys s).sched = [] := by
  rw [alignKeys_eq]
  generalize allKeys = l
  induction l generalizing s with
  | nil => exact h
  | cons k l ih =>
    refine ih ?_
    rw [alignKey, applyKeyWord_sched, h]
    split <;> rfl

theorem alignKeys_queue_nil {s : State} (h : s.fire.queue = []) : (alignKeys s).fire.queue = [] := by
  rw [alignKeys_eq]
  generalize allKeys = l
  induction l generalizing s with
  | nil => exact h
  | cons k l ih => exact ih (applyKeyWord_queue_nil h)

/-! ## The pedal initialisation (R147) -/

/-- The link and the other fields of the unit, its records apart. -/
def SameUnit (u v : PedalUnit) : Prop := v = { u with recs := v.recs }

theorem SameUnit.trans {a b c : PedalUnit} (h : SameUnit a b) (h' : SameUnit b c) : SameUnit a c := by
  unfold SameUnit at *
  rw [h', h]

theorem foldl_clear (l : List Pedal) (s : State) :
    SameUnit s.pedals (l.foldl (fun s p => updPedal p (fun _ => {}) s) s).pedals ∧
      ∀ q, (l.foldl (fun s p => updPedal p (fun _ => {}) s) s).pedals.pedal q =
        if q ∈ l then {} else s.pedals.pedal q := by
  induction l generalizing s with
  | nil => exact ⟨rfl, by simp⟩
  | cons p l ih =>
    obtain ⟨hunit, hrec⟩ := ih (updPedal p (fun _ => {}) s)
    refine ⟨SameUnit.trans (rfl : SameUnit s.pedals (updPedal p (fun _ => {}) s).pedals) hunit, fun q => ?_⟩
    rw [List.foldl_cons, hrec, updPedal_pedal]
    by_cases hq : q = p <;> simp [hq]

theorem putMove_live {s : State} {p : Pedal} (h : (s.pedals.pedal p).motion ≠ .fault) (m : Move) :
    putMove p m s = updPedal p (fun r => { r with waiting := some m }) s := if_neg h

/-- Every pedal of a list is given a move to 0, due now. -/
theorem foldl_putMove {l : List Pedal} (hl : l.Nodup) {x : State} (hx : ∀ p ∈ l, x.pedals.pedal p = {}) :
    SameUnit x.pedals (l.foldl (fun s p => putMove p { depth := 0, due := s.now } s) x).pedals ∧
      ∀ q, (l.foldl (fun s p => putMove p { depth := 0, due := s.now } s) x).pedals.pedal q =
        if q ∈ l then { waiting := some { depth := 0, due := x.now } } else x.pedals.pedal q := by
  induction l generalizing x with
  | nil => exact ⟨rfl, by simp⟩
  | cons p l ih =>
    obtain ⟨hfresh, hl⟩ := List.nodup_cons.mp hl
    have hp := hx p (by simp)
    have hput := putMove_live (s := x) (p := p) (by rw [hp]; decide) { depth := 0, due := x.now }
    obtain ⟨hunit, hrec⟩ := ih hl (x := putMove p { depth := 0, due := x.now } x) fun q hq => by
      have hqp : q ≠ p := fun h => hfresh (h ▸ hq)
      rw [hput, updPedal_pedal, if_neg hqp]
      exact hx q (by simp [hq])
    have hone : SameUnit x.pedals (putMove p { depth := 0, due := x.now } x).pedals := by
      rw [hput]
      rfl
    refine ⟨hone.trans hunit, fun q => ?_⟩
    rw [List.foldl_cons, hrec, hput, updPedal_pedal, hp]
    by_cases hq : q = p
    · subst hq
      simp [hfresh]
    · simp [hq]

/-- The pedal unit with the copies of the load, its link freed or aborting, and every pedal cleared (R147). -/
def pedalsReset (s : State) : State :=
  setSost [] (allPedals.foldl (fun s p => updPedal p (fun _ => {}) s)
    (setLink (s.pedals.link.abort s.now)
      (setPedalCopies s.shadow.pedalRetries s.shadow.replyTimeout s.shadow.travelLimit s)))

/-- The state of the initialisation before the link's choice: each pedal has its move to 0 (R147). -/
def pedalsCleared (s : State) : State :=
  allPedals.foldl (fun s p => putMove p { depth := 0, due := s.now } s) (pedalsReset s)

theorem initPedals_eq (s : State) : initPedals s = linkSend (pedalsCleared s) := rfl

theorem pedalsReset_pedals (s : State) :
    (pedalsReset s).now = s.now ∧
      (pedalsReset s).pedals = { s.pedals with
        maxRetries := s.shadow.pedalRetries, replyTimeout := s.shadow.replyTimeout, travelLimit := s.shadow.travelLimit
        link := s.pedals.link.abort s.now, sost := [], recs := (pedalsReset s).pedals.recs } ∧
      ∀ p, (pedalsReset s).pedals.pedal p = {} := by
  unfold pedalsReset
  have hcopies : (setLink (s.pedals.link.abort s.now)
      (setPedalCopies s.shadow.pedalRetries s.shadow.replyTimeout s.shadow.travelLimit s)).pedals = { s.pedals with
        maxRetries := s.shadow.pedalRetries, replyTimeout := s.shadow.replyTimeout, travelLimit := s.shadow.travelLimit
        link := s.pedals.link.abort s.now } := rfl
  have hnow := foldl_keeps (fun x => x.now) (fun s p => updPedal p (fun _ => {}) s) (fun _ _ => rfl) allPedals
    (setLink (s.pedals.link.abort s.now)
      (setPedalCopies s.shadow.pedalRetries s.shadow.replyTimeout s.shadow.travelLimit s))
  obtain ⟨hunit, hrec⟩ := foldl_clear allPedals (setLink (s.pedals.link.abort s.now)
    (setPedalCopies s.shadow.pedalRetries s.shadow.replyTimeout s.shadow.travelLimit s))
  generalize allPedals.foldl (fun s p => updPedal p (fun _ => {}) s) _ = x at *
  unfold SameUnit at hunit
  refine ⟨hnow, ?_, fun p => ?_⟩
  · rw [setSost_pedals, hunit, hcopies]
  · exact (hrec p).trans (if_pos (mem_allPedals p))

theorem pedalsCleared_pedals (s : State) :
    (pedalsCleared s).now = s.now ∧
      (pedalsCleared s).pedals = { s.pedals with
        maxRetries := s.shadow.pedalRetries, replyTimeout := s.shadow.replyTimeout, travelLimit := s.shadow.travelLimit
        link := s.pedals.link.abort s.now, sost := [], recs := (pedalsCleared s).pedals.recs } ∧
      ∀ p, (pedalsCleared s).pedals.pedal p = { waiting := some { depth := 0, due := s.now } } := by
  unfold pedalsCleared
  obtain ⟨hnow, hpedals, hrec⟩ := pedalsReset_pedals s
  have hkept := foldl_keeps (fun x => x.now) (fun s p => putMove p { depth := 0, due := s.now } s) (fun x p => by simp)
    allPedals (pedalsReset s)
  obtain ⟨hunit, hmoves⟩ := foldl_putMove (l := allPedals) (by decide) (x := pedalsReset s) fun p _ => hrec p
  generalize allPedals.foldl (fun s p => putMove p { depth := 0, due := s.now } s) (pedalsReset s) = x at *
  generalize pedalsReset s = z at *
  unfold SameUnit at hunit
  refine ⟨hkept.trans hnow, ?_, fun p => ?_⟩
  · rw [hunit, hpedals]
  · rw [hmoves, if_pos (mem_allPedals p), hnow]

/-- With every pedal's move due at the same instant the link takes the damper's (R139). -/
theorem linkSend_damper {s : State} {m : Move} (hl : s.pedals.link = .idle) (h : ∀ p, (s.pedals.pedal p).waiting = some m) :
    linkSend s = setLink (.sending { pedal := .damper, depth := m.depth } s.now none)
      (updPedal .damper (fun r => { r with waiting := none }) s) := by
  have hchosen : choosePedal s.pedals = some (.damper, m) := by simp [choosePedal, allPedals, h]
  rcases linkSend_cases s with ⟨-, hidle | hnone⟩ | ⟨p, n, -, hc, hsend⟩
  · exact absurd hl hidle
  · rw [hchosen] at hnone
    cases hnone
  · rw [hchosen] at hc
    cases hc
    exact hsend

/-- The pedals after the initialisation (R147). -/
theorem initPedals_whole (s : State) :
    (initPedals s).pedals.maxRetries = s.shadow.pedalRetries ∧
    (initPedals s).pedals.replyTimeout = s.shadow.replyTimeout ∧
    (initPedals s).pedals.travelLimit = s.shadow.travelLimit ∧ (initPedals s).pedals.sost = [] ∧
    (initPedals s).pedals.rxBytes = s.pedals.rxBytes ∧ (initPedals s).pedals.rxEnd = s.pedals.rxEnd ∧
    (∀ p, (initPedals s).pedals.pedal p =
      { depth := 0, motion := .atRest, target := 0, retries := 0, travel := none
        waiting := ((initPedals s).pedals.pedal p).waiting }) ∧
    (∀ f start abortAt, s.pedals.link = .sending f start abortAt →
      (initPedals s).pedals.link = .sending f start
        (some (abortAt.getD (min (start + 120) (start + 40 * ((s.now - start) / 40 + 1))))) ∧
      ∀ p, ((initPedals s).pedals.pedal p).waiting = some { depth := 0, due := s.now }) ∧
    ((∀ f start abortAt, s.pedals.link ≠ .sending f start abortAt) →
      (initPedals s).pedals.link = .sending { pedal := .damper, depth := 0 } s.now none ∧
      ((initPedals s).pedals.pedal .damper).waiting = none ∧
      ∀ p, p ≠ .damper → ((initPedals s).pedals.pedal p).waiting = some { depth := 0, due := s.now }) := by
  obtain ⟨hnow, hpedals, hrec⟩ := pedalsCleared_pedals s
  rw [initPedals_eq]
  generalize pedalsCleared s = z at *
  have hsame := linkSend_pedals z
  refine ⟨by rw [hsame, hpedals], by rw [hsame, hpedals], by rw [hsame, hpedals], by rw [hsame, hpedals],
    by rw [hsame, hpedals], by rw [hsame, hpedals], fun p => ?_, fun f start abortAt hsending => ?_, fun hfree => ?_⟩
  · have hp := linkSend_pedal z p
    rw [hrec] at hp
    exact hp
  · have hlink : z.pedals.link =
        .sending f start (some (abortAt.getD (min (start + 120) (start + 40 * ((s.now - start) / 40 + 1))))) := by
      rw [hpedals, hsending]
      cases abortAt <;> simp [Link.abort, byteEnd, Config.frameTime, Config.byteTime]
    rw [linkSend_busy (by rw [hlink]; simp)]
    exact ⟨hlink, fun p => by rw [hrec]⟩
  · have hlink : z.pedals.link = .idle := by
      rw [hpedals]
      cases h : s.pedals.link with
      | idle => rfl
      | awaiting f since => rfl
      | sending f start abortAt => exact absurd h (hfree f start abortAt)
    rw [linkSend_damper hlink fun p => by rw [hrec], hnow]
    refine ⟨rfl, ?_, fun p hp => ?_⟩
    · rw [setLink_pedal, updPedal_pedal, if_pos rfl]
    · rw [setLink_pedal, updPedal_pedal, if_neg hp, hrec]

/-! ## The success (R174) -/

/-- The success as far as the copies and start values of ring, tracks and expression. -/
def loadStarted (s : State) : State :=
  let s1 := setLoadFault 0 (setLoaded true s)
  let s2 := ringResetTo s1.shadow.ringBase s1.shadow.ringSlots s1
  let s3 := setShift 0 (updTrack (copyTrack s2.shadow) s2)
  startSides (setExprRest s3.expr.soft (some (exprCopies s3.shadow)) s3.expr.sample s3)

theorem loadSucceeds_eq (s : State) :
    loadSucceeds s = initPedals (activateReports (clearCues (alignKeys (setHeatCopies (loadStarted s))))) := rfl

/-- The shadow of a load that has succeeded. -/
def Shadow.inForce (sh : Shadow) : Shadow := { sh with loaded := true, loadFault := 0 }

theorem loadStarted_frame (s : State) :
    loadStarted s = { s with
      shadow := s.shadow.inForce
      ring := { base := s.shadow.ringBase, nslots := s.shadow.ringSlots }
      track := { copyTrack s.shadow s.track with shift := 0 }
      expr := { s.expr with
        copies := some (exprCopies s.shadow), soft := false, bass := startSide s.shadow.exprBase
        treble := startSide s.shadow.exprBase }
      updates := (loadStarted s).updates } := by
  apply state_ext
  case shadow => rfl
  case ring => rfl
  case track => rfl
  case expr =>
    have hcopies : exprCopies { s.shadow with loaded := true, loadFault := 0 } = exprCopies s.shadow := rfl
    have hbase : (exprCopies s.shadow).exprBase = s.shadow.exprBase := rfl
    simp [loadStarted, startSides, Expression.base, hcopies, hbase]
  all_goals simp [loadStarted]

theorem setHeatCopies_frame (s : State) :
    setHeatCopies s = { s with
      heat := { gain := s.shadow.heatGain, cool := s.shadow.coolRate, warm := s.shadow.warmLimit
                hot := s.shadow.hotLimit, sustain := s.shadow.sustainDepth, next := s.heat.next } } := rfl

theorem loadCopied_frame (s : State) :
    setHeatCopies (loadStarted s) = { s with
      shadow := s.shadow.inForce
      ring := { base := s.shadow.ringBase, nslots := s.shadow.ringSlots }
      track := { copyTrack s.shadow s.track with shift := 0 }
      expr := { s.expr with
        copies := some (exprCopies s.shadow), soft := false, bass := startSide s.shadow.exprBase
        treble := startSide s.shadow.exprBase }
      heat := { gain := s.shadow.heatGain, cool := s.shadow.coolRate, warm := s.shadow.warmLimit
                hot := s.shadow.hotLimit, sustain := s.shadow.sustainDepth, next := s.heat.next }
      updates := (loadStarted s).updates } := by
  have hstarted := loadStarted_frame s
  generalize loadStarted s = x at *
  rw [setHeatCopies_frame]
  generalize x.updates = updates at *
  subst hstarted
  rfl

theorem activateReports_report (s : State) :
    (activateReports s).report = { s.report with
      wr := s.shadow.rptRead, lost := false, classes := Bank.replicate 256 none
      copies := some { base := s.shadow.rptBase, size := s.shadow.rptSize }, active := true
      readIndex := s.shadow.rptRead, enables := s.shadow.notice } := rfl

end Sys2Proof.Machine

open Sys2Proof Sys2Proof.Machine

/-- Settles O39: the copies (`loadCopied_frame`), the keys (`alignKeys_key`), the reports and the pedals
(`initPedals_whole`). -/
theorem validationSuccessGivesCopiesAndStartValues : Obligations.validation_success_gives_copies_and_start_values := by
  intro s s'
  have hs' : s' = initPedals (activateReports (clearCues (alignKeys (setHeatCopies (loadStarted s))))) := loadSucceeds_eq s
  obtain ⟨hnow, hpending, hrst, hinh, hntc, hpwait, hspb, hpd, hkd, hmem, harb, hclock⟩ := loadSucceeds_keeps s
  have hcopied := loadCopied_frame s
  generalize setHeatCopies (loadStarted s) = y at hs' hcopied
  have hyshadow : y.shadow = s.shadow.inForce := by rw [hcopied]
  have hfinal : s'.shadow = s.shadow.inForce := by simp [hs', hyshadow]
  have hkey : ∀ k, s'.key k = s.keyAligned s.shadow.recovery s.now k (s.shadow.word (0x200 + 2 * k.val)) := by
    intro k
    have hself : s'.key k = (alignKeys y).key k := by simp [hs', State.key]
    have hy : y.key k = s.key k := by rw [hcopied]; rfl
    have hynow : y.now = s.now := by rw [hcopied]
    rw [hself, alignKeys_key, keyAligned_congr hy, hyshadow, hynow]
    rfl
  have hsched : s.sched = [] → s'.sched = [] := by
    intro h
    have hy : y.sched = [] := by rw [hcopied]; exact h
    simpa [hs'] using alignKeys_sched_nil hy
  have hqueue : s.fire.queue = [] → s'.fire.queue = [] := by
    intro h
    have hy : y.fire.queue = [] := by rw [hcopied]; exact h
    simpa [hs'] using alignKeys_queue_nil hy
  have hpedals := initPedals_whole (activateReports (clearCues (alignKeys y)))
  rw [← hs'] at hpedals
  have hunit : (activateReports (clearCues (alignKeys y))).pedals = s.pedals := by simp [hcopied]
  have hthen : (activateReports (clearCues (alignKeys y))).now = s.now := by simp [hcopied]
  have hwords : (activateReports (clearCues (alignKeys y))).shadow = s.shadow.inForce := by simp [hyshadow]
  rw [hunit, hthen, hwords] at hpedals
  obtain ⟨hretries, hreply, htravel, hsost, hrx, hend, hrecs, hsending, hfree⟩ := hpedals
  have hreport : s'.report = { s.report with
      wr := s.shadow.rptRead, lost := false, classes := Bank.replicate 256 none
      copies := some { base := s.shadow.rptBase, size := s.shadow.rptSize }, active := true
      readIndex := s.shadow.rptRead, enables := s.shadow.notice } := by
    have hself : s'.report = (activateReports (clearCues (alignKeys y))).report := by simp [hs']
    have hbefore : (clearCues (alignKeys y)).report = s.report := by simp [hcopied]
    have hsh : (clearCues (alignKeys y)).shadow = s.shadow.inForce := by simp [hyshadow]
    rw [hself, activateReports_report, hbefore, hsh]
    rfl
  have hcue : s'.cue = { s.cue with flagA := false, flagB := false, bArmed := false } := by
    simp [hs', clearCues, hcopied]
  refine ⟨⟨?_, ?_, ?_, ?_, ?_, ?_, ?_, hkey, hsched, hqueue, hcue, hreport, hretries, hreply, htravel, hsost, hrx, hend,
    hrecs, hsending, hfree, ?_, hmem⟩, hclock, harb, hnow, hfinal, ?_⟩
  · rw [hfinal]
    rfl
  · rw [hfinal]
    rfl
  · rw [hfinal]
    rfl
  · simp [hs', hcopied]
  · simp [hs', hcopied]
  · simp [hs', hcopied]
  · simp [hs', hcopied]
  · exact congrArg Clock.state hclock
  · apply state_ext
    case now => exact hnow
    case pending => exact hpending
    case rst => exact hrst
    case inh => exact hinh
    case ntc => exact hntc
    case pwait => exact hpwait
    case spb => exact hspb
    case pd => exact hpd
    case kdNext => exact hkd
    case mem => exact hmem
    case arb => exact harb
    case clock => exact hclock
    all_goals dsimp only
end

section
/-! PROOF. A setup-load read in a state that plays: the failed load leaves PLAYING time owed (R46, R174). -/

namespace Sys2Proof.Machine

/-- A load that fails goes to IDLE, and the expression count with it (R174, R46). -/
theorem loadFails_clock (off : Nat) (s : State) :
    (loadFails off s).clock = { s.clock with
      state := .idle, cause := .loadFault, exprCount := s.clock.countOn .idle, exprOwed := s.clock.owedOn .idle } := by
  simp [loadFails]

theorem loadWord_fails {off fault : Nat} {w : Word} {s : State} (h : loadWordFault (s.shadow.put off w).word off = some fault) :
    loadWord off w s = loadFails fault (setReadCount (s.shadow.readCount + 1) (putField off w s)) := by
  have hword : loadWordFault (setReadCount (s.shadow.readCount + 1) (putField off w s)).shadow.word off = some fault := h
  unfold loadWord
  dsimp only
  rw [hword]

/-- A setup-load read of a row whose word fails, with no processor cycle waiting. -/
theorem setupLoadWord_fails {t : Instant} {off fault : Nat} {s : State} (hr : s.rst = false) (hw : s.arb.waiting = none)
    (ho : s.arb.owner = some (.setupLoad off true))
    (h : loadWordFault (s.shadow.put off (readWord s.mem (s.pageBase + off))).word off = some fault) :
    exec (.setupLoadWord t) s = .next (drivePins (loadFails fault (setReadCount (s.shadow.readCount + 1)
      (putField off (readWord s.mem (s.pageBase + off)) (portFreed t s))))) := by
  have hrow : exec (.setupLoadWord t) s = .next (drivePins (onSetupLoadWord (advance t s))) := partRow_owned hr ho
  have hload : loadWord off (readWord s.mem (s.pageBase + off)) (portFreed t s) = loadFails fault _ := loadWord_fails h
  have hwaits : (loadWord off (readWord s.mem (s.pageBase + off)) (portFreed t s)).arb.waiting = none := by
    simpa [portFreed] using hw
  rw [hrow, onSetupLoadWord, show (advance t s).arb.owner = some (.setupLoad off true) from ho]
  refine (congrArg (fun x => Host.Outcome.next (drivePins x)) (serveWaiting_none hwaits)).trans ?_
  rw [hload]
  rfl

/-- A state no run reaches: it plays, with more PLAYING time counted than an expression period, while the port holds a
live setup-load read of HEAT_GAIN, whose word in memory is 0 and out of range. -/
def playingLoad : State :=
  { rst := false, clock := { state := .playing, exprCount := 20000 }, arb := { owner := some (.setupLoad 0x0BA true) } }

end Sys2Proof.Machine

open Sys2Proof Sys2Proof.Machine

/-- Refutes O38: the read in `playingLoad` fails the load, and the PLAYING time beyond the expression period becomes owed
(`Clock.owedOn`), while the frame of a failed load leaves what is owed as it was. The statement does not ask for the state to
be LOADING. -/
theorem not_setupLoadWordIsChecked : ¬ Obligations.setup_load_word_is_checked := by
  intro h
  have hfault : loadWordFault (playingLoad.shadow.put 0x0BA 0).word 0x0BA = some 0x0BA := by decide
  obtain ⟨s', hrow, -, -, hframe⟩ := (h.1 0 0x0BA playingLoad rfl rfl rfl).2.1 0x0BA hfault
  rw [setupLoadWord_fails rfl rfl rfl hfault] at hrow
  injection hrow with hs'
  have hmoved : s'.clock.exprOwed = 10001 := by
    have howed : s'.clock.exprOwed = (portFreed 0 playingLoad).clock.owedOn .idle := by simp [← hs', loadFails_clock]
    exact howed.trans (by decide)
  have hkept : s'.clock.exprOwed = 0 := by rw [hframe]; rfl
  omega
end

section
/-! PROOF. A strike joins the queue (R93 to R98, R103, R104). -/

namespace Sys2Proof.Machine

/-! ## One key, the schedule and the queue moved on -/

/-- From `s` to `z` key k became `r`, the schedule `sched` and the Firing Arbiter `fire`, and the records `l` were raised;
nothing else changed but the update list. -/
def StrikeMoved (s z : State) (k : Key) (r : KeyRec) (sched : List Entry) (fire : Fire)
    (l : List (ReportKind × Word × Word)) : Prop :=
  z.key k = r ∧ (∀ k', k' ≠ k → z.key k' = s.key k') ∧ s.raisedExactly z l ∧ OnlyRaised s.report z.report ∧
    z = { s with sched := sched, keys := z.keys, fire := fire, report := z.report, updates := z.updates }

theorem raisedExactly_trans {s y z : State} {l l' : List (ReportKind × Word × Word)} (h : s.raisedExactly y l)
    (ht : y.track.lastTag = s.track.lastTag) (h' : y.raisedExactly z l') : s.raisedExactly z (l ++ l') := by
  unfold State.raisedExactly at *
  rw [List.foldl_append, ← h, h', ht]

theorem StrikeMoved.trans {s y z : State} {k : Key} {r r' : KeyRec} {sched sched' : List Entry} {fire fire' : Fire}
    {l l' : List (ReportKind × Word × Word)} (h : StrikeMoved s y k r sched fire l)
    (h' : StrikeMoved y z k r' sched' fire' l') : StrikeMoved s z k r' sched' fire' (l ++ l') := by
  obtain ⟨-, hother, hraised, honly, hframe⟩ := h
  obtain ⟨hkey', hother', hraised', honly', hframe'⟩ := h'
  refine ⟨hkey', fun k' hk => (hother' k' hk).trans (hother k' hk), raisedExactly_trans hraised ?_ hraised',
    honly.trans honly', ?_⟩
  · rw [hframe]
  · rw [hframe', hframe]

/-- What a strike's move leaves of the rest. -/
theorem StrikeMoved.parts {s z : State} {k : Key} {r : KeyRec} {sched : List Entry} {fire : Fire}
    {l : List (ReportKind × Word × Word)} (h : StrikeMoved s z k r sched fire l) :
    z.now = s.now ∧ z.clock = s.clock ∧ z.shadow = s.shadow ∧ z.heat = s.heat ∧ z.expr = s.expr ∧ z.sched = sched ∧
      z.fire = fire := by
  obtain ⟨-, -, -, -, hframe⟩ := h
  rw [hframe]
  exact ⟨rfl, rfl, rfl, rfl, rfl, rfl, rfl⟩

theorem KeyMoved.strike {s z : State} {k : Key} {r : KeyRec} {fire : Fire} (h : KeyMoved s z k r fire) :
    StrikeMoved s z k r s.sched fire [] := by
  have hreport : z.report = s.report := by simp [h.parts]
  obtain ⟨hkey, hother, hframe⟩ := h
  refine ⟨hkey, hother, hreport, .of_eq hreport, ?_⟩
  rw [hreport]
  exact hframe

theorem setSched_moved (l : List Entry) (k : Key) (s : State) : StrikeMoved s (setSched l s) k (s.key k) l s.fire [] :=
  ⟨rfl, fun _ _ => rfl, rfl, .refl _, rfl⟩

theorem setQueue_moved (q : List Waiting) (k : Key) (s : State) :
    StrikeMoved s (setQueue q s) k (s.key k) s.sched { s.fire with queue := q } [] :=
  ⟨rfl, fun _ _ => rfl, rfl, .refl _, rfl⟩

theorem raise_moved (kind : ReportKind) (a d : Word) (k : Key) (s : State) :
    StrikeMoved s (raise kind a d s) k (s.key k) s.sched s.fire [(kind, a, d)] :=
  ⟨rfl, fun _ _ => rfl, raise_raisedExactly rfl rfl, raise_onlyRaised _ _ _ _, rfl⟩

/-- A waiting strike is dropped: it leaves the queue, its record is raised, and its key is told (R97, R98, R104). -/
theorem strikeDropped_moved (kind : ReportKind) (tag : Word) (k : Key) (q : List Waiting) (s : State) :
    StrikeMoved s (strikeGone k (raise kind (keyWord k) tag (setQueue q s))) k (s.key k).strikeGone s.sched
      { s.fire with queue := q } [(kind, keyWord k, tag)] := by
  have hraised := (setQueue_moved q k s).trans (raise_moved kind (keyWord k) tag k (setQueue q s))
  have htold := (updKey_moved k KeyRec.strikeGone (raise kind (keyWord k) tag (setQueue q s))).strike
  exact hraised.trans htold

/-! ## The strike that joins (R93, R94) -/

theorem waitingOf_eq (k : Key) (q : List Waiting) : waitingOf k q = q.find? (fun w => decide (w.key = k)) := rfl

theorem withoutKey_of_none {k : Key} {q : List Waiting} (h : waitingOf k q = none) : withoutKey k q = q := by
  rw [waitingOf_eq, List.find?_eq_none] at h
  exact List.filter_eq_self.mpr fun w hw => by simpa using h w hw

/-- The strikes that wait for a key, replaced by a new one with DROP_LATE for the first (R94). -/
theorem replaceWaiting_moved (k : Key) (s : State) :
    StrikeMoved s (replaceWaiting k s) k (s.key k) s.sched { s.fire with queue := withoutKey k s.fire.queue }
      ((waitingOf k s.fire.queue).toList.map fun old => (ReportKind.dropLate, keyWord k, old.tag)) := by
  cases h : waitingOf k s.fire.queue with
  | none =>
    have hsame : replaceWaiting k s = s := by simp [replaceWaiting, h]
    rw [hsame, withoutKey_of_none h]
    exact ⟨rfl, fun _ _ => rfl, rfl, .refl _, rfl⟩
  | some old =>
    have hraised : replaceWaiting k s = raise .dropLate (keyWord k) old.tag (setQueue (withoutKey k s.fire.queue) s) := by
      simp [replaceWaiting, h]
    rw [hraised]
    exact (setQueue_moved _ k s).trans (raise_moved .dropLate (keyWord k) old.tag k _)

/-- The queue with the new strike at its place, before the channel takes it. -/
def strikeQueued (w : Waiting) (s : State) : State :=
  setQueue (insertWaiting w (replaceWaiting w.key s).fire.queue) (replaceWaiting w.key s)

theorem strikeQueued_moved (w : Waiting) (s : State) :
    StrikeMoved s (strikeQueued w s) w.key (s.key w.key) s.sched
      { s.fire with queue := insertWaiting w (withoutKey w.key s.fire.queue) }
      ((waitingOf w.key s.fire.queue).toList.map fun old => (ReportKind.dropLate, keyWord w.key, old.tag)) := by
  have hreplaced := replaceWaiting_moved w.key s
  have hqueued := setQueue_moved (insertWaiting w (replaceWaiting w.key s).fire.queue) w.key (replaceWaiting w.key s)
  have hfire : (replaceWaiting w.key s).fire = { s.fire with queue := withoutKey w.key s.fire.queue } := by
    simp [hreplaced.parts]
  have hsched : (replaceWaiting w.key s).sched = s.sched := by simp
  have hmoved := hreplaced.trans hqueued
  rw [List.append_nil, hreplaced.1, hsched, hfire] at hmoved
  rwa [strikeQueued, hfire]

theorem enterQueue_eq {w : Waiting} {s : State} (h : (s.key w.key).state ≠ .locked) :
    enterQueue w s = expireOnEntry w (grantStrikes (strikeJoins w.key w.serial (strikeQueued w s))) := if_neg h

/-! ## The channel takes the strike (R95, R103) -/

theorem strikeJoins_waits {k : Key} {serial : Byte} {s : State}
    (h : (s.key k).state = .rest ∨ (s.key k).state = .releasing) :
    StrikeMoved s (strikeJoins k serial s) k { s.key k with note := some serial, releaseOwed := false } s.sched s.fire [] := by
  have hjoin : strikeJoins k serial s = updKey k (fun r => { r with note := some serial, releaseOwed := false }) s := by
    rcases h with h | h <;> simp [strikeJoins, h]
  rw [hjoin]
  exact (updKey_moved k _ s).strike

theorem endNote_moved (k : Key) (s : State) :
    StrikeMoved s (endNote k (s.key k).note s) k (s.key k) (s.noteEnded k s.sched) s.fire [] := by
  unfold endNote State.noteEnded
  cases (s.key k).note with
  | none => exact ⟨rfl, fun _ _ => rfl, rfl, .refl _, rfl⟩
  | some serial => exact setSched_moved _ k s

theorem strikeJoins_sounds {k : Key} {serial : Byte} {s : State}
    (h : (s.key k).state = .firing ∨ (s.key k).state = .holding ∧ (s.key k).timer ≠ none) :
    StrikeMoved s (strikeJoins k serial s) k
      { s.key k with nextNote := some serial, nextOwed := false, releaseOwed := true } (s.noteEnded k s.sched) s.fire [] := by
  have hjoin : strikeJoins k serial s = updKey k
      (fun r => { r with nextNote := some serial, nextOwed := false, releaseOwed := true })
      (endNote k (s.key k).note s) := by
    rcases h with h | ⟨h, ht⟩
    · simp [strikeJoins, h]
    · simp [strikeJoins, h, Option.isNone_iff_eq_none, ht]
  have hended := endNote_moved k s
  have htaken := (updKey_moved k (fun r => { r with nextNote := some serial, nextOwed := false, releaseOwed := true })
    (endNote k (s.key k).note s)).strike
  rw [hended.1] at htaken
  rw [hjoin]
  simpa [hended.parts] using hended.trans htaken

theorem strikeJoins_released {k : Key} {serial : Byte} {s : State} (h : (s.key k).state = .holding)
    (ht : (s.key k).timer = none) :
    StrikeMoved s (strikeJoins k serial s) k
      { s.key k with
        state := .releasing, duty := 0, timer := some (s.now + 100 * s.shadow.recovery), reduced := false
        note := some serial, releaseOwed := false, nextNote := none, nextOwed := false }
      (s.noteEnded k s.sched) s.fire [] := by
  have hjoin : strikeJoins k serial s = toReleasing k
      (updKey k (fun r => { r with nextNote := some serial, nextOwed := false }) (endNote k (s.key k).note s)) := by
    simp [strikeJoins, h, ht]
  have hended := endNote_moved k s
  have htaken := (updKey_moved k (fun r => { r with nextNote := some serial, nextOwed := false })
    (endNote k (s.key k).note s)).strike
  rw [hended.1] at htaken
  have hmoved := hended.trans htaken
  have hstate : ((updKey k (fun r => { r with nextNote := some serial, nextOwed := false })
      (endNote k (s.key k).note s)).key k).state ≠ .firing := by
    rw [hmoved.1]
    simp [h]
  have hreleased := (toReleasing_moved_sounding hstate).strike
  rw [hmoved.1] at hreleased
  have hall := hmoved.trans hreleased
  rw [hjoin]
  simpa [hmoved.parts, hended.parts, KeyRec.releasing, Config.unit] using hall

end Sys2Proof.Machine
end

section
/-! PROOF. Dispatch of one due entry (R91, R92, R94 to R98, R108, R109, R135). -/

namespace Sys2Proof.Machine

/-! ## The strike's place in the queue (R93) -/

theorem insertWaiting_split (w : Waiting) (q : List Waiting) :
    ∃ before after, q = before ++ after ∧ insertWaiting w q = before ++ w :: after := by
  induction q with
  | nil => exact ⟨[], [], rfl, rfl⟩
  | cons x q ih =>
    by_cases h : x.due < w.due ∨ (x.due = w.due ∧ x.key < w.key)
    · obtain ⟨before, after, hq, hins⟩ := ih
      exact ⟨x :: before, after, by rw [hq]; rfl, by rw [insertWaiting, if_pos h, hins]; rfl⟩
    · exact ⟨[], x :: q, rfl, by rw [insertWaiting, if_neg h]; rfl⟩

/-- Queue order (R93). -/
def queuedBefore (x y : Waiting) : Bool := decide (x.due < y.due ∨ x.due = y.due ∧ x.key < y.key)

theorem queuedBefore_trans {x y z : Waiting} (h : queuedBefore x y = true) (h' : queuedBefore y z = true) :
    queuedBefore x z = true := by
  simp only [queuedBefore, decide_eq_true_eq] at *
  rcases h with h | ⟨h, hk⟩ <;> rcases h' with h' | ⟨h', hk'⟩
  · exact .inl (Nat.lt_trans h h')
  · exact .inl (h' ▸ h)
  · exact .inl (h ▸ h')
  · exact .inr ⟨h.trans h', Nat.lt_trans hk hk'⟩

theorem insertWaiting_sorted {w : Waiting} {q : List Waiting} (h : q.Pairwise fun x y => queuedBefore x y = true) :
    insertWaiting w q = q.filter (fun x => queuedBefore x w) ++ w :: q.filter (fun x => !queuedBefore x w) := by
  induction q with
  | nil => rfl
  | cons x q ih =>
    obtain ⟨hx, hq⟩ := List.pairwise_cons.mp h
    cases hb : queuedBefore x w with
    | true =>
      rw [insertWaiting, if_pos (by simpa [queuedBefore] using hb), ih hq, List.filter_cons_of_pos (p := fun x => queuedBefore x w) hb,
        List.filter_cons_of_neg (by simp [hb])]
      rfl
    | false =>
      have hlater : ∀ y ∈ x :: q, queuedBefore y w = false := by
        intro y hy
        rcases List.mem_cons.mp hy with rfl | hy
        · exact hb
        · refine Bool.eq_false_iff.mpr fun hyw => ?_
          rw [queuedBefore_trans (hx y hy) hyw] at hb
          cases hb
      rw [insertWaiting, if_neg (by simpa [queuedBefore] using hb),
        List.filter_eq_nil_iff.mpr fun y hy => by simp [hlater y hy],
        List.filter_eq_self.mpr fun y hy => by simp [hlater y hy]]
      rfl

/-! ## A strike that waits, or is dropped on entry (R93, R98, R104) -/

theorem withoutKey_ne {k : Key} {q : List Waiting} {x : Waiting} (hx : x ∈ withoutKey k q) : x.key ≠ k := by
  simpa using (List.mem_filter.mp hx).2

theorem withoutKey_insert {w : Waiting} {q : List Waiting} (h : ∀ x ∈ q, x.key ≠ w.key) :
    withoutKey w.key (insertWaiting w q) = q := by
  obtain ⟨before, after, hq, hins⟩ := insertWaiting_split w q
  rw [hins, hq]
  exact withoutKey_middle fun x hx => h x (hq ▸ hx)

theorem mem_insertWaiting (w : Waiting) (q : List Waiting) : w ∈ insertWaiting w q := by
  obtain ⟨before, after, -, hins⟩ := insertWaiting_split w q
  simp [hins]

theorem of_mem_insertWaiting {w x : Waiting} {q : List Waiting} (h : x ∈ insertWaiting w q) : x = w ∨ x ∈ q := by
  obtain ⟨before, after, hq, hins⟩ := insertWaiting_split w q
  rw [hins] at h
  rw [hq]
  rcases List.mem_append.mp h with h | h
  · exact .inr (List.mem_append_left _ h)
  · rcases List.mem_cons.mp h with h | h
    · exact .inl h
    · exact .inr (List.mem_append_right _ h)

/-- The entries of a schedule without a note's RELEASE are of that schedule. -/
theorem noteEnded_subset {s : State} {k : Key} {l : List Entry} {x : Entry} (h : x ∈ s.noteEnded k l) : x ∈ l := by
  unfold State.noteEnded at h
  split at h
  · exact h
  · exact List.mem_of_mem_eraseP h

theorem waitingOf_insert {w : Waiting} {q : List Waiting} (h : ∀ x ∈ q, x.key ≠ w.key) :
    waitingOf w.key (insertWaiting w q) = some w := by
  obtain ⟨before, after, hq, hins⟩ := insertWaiting_split w q
  have hbefore : before.find? (fun x => decide (x.key = w.key)) = none :=
    List.find?_eq_none.mpr fun x hx => by simpa using h x (hq ▸ List.mem_append_left _ hx)
  rw [hins, waitingOf_eq, List.find?_append, hbefore]
  simp

theorem expireOnEntry_gone {w : Waiting} {s : State} (h : w ∉ s.fire.queue) : expireOnEntry w s = s :=
  if_neg (by simp [h])

theorem expireOnEntry_waits {w : Waiting} {s : State} (h : ¬ w.expiry ≤ s.now) : expireOnEntry w s = s :=
  if_neg fun hw => h hw.2

theorem expireOnEntry_late {w : Waiting} {s : State} {q : List Waiting} (hq : s.fire.queue = insertWaiting w q)
    (hne : ∀ x ∈ q, x.key ≠ w.key) (h : w.expiry ≤ s.now) :
    expireOnEntry w s = strikeGone w.key (raise .dropLate (keyWord w.key) w.tag (setQueue q s)) := by
  have hmem : w ∈ s.fire.queue := hq ▸ mem_insertWaiting w q
  have hdrop : expireOnEntry w s = dropWaiting w.key s := if_pos ⟨by simpa using hmem, h⟩
  rw [hdrop, dropWaiting, hq, waitingOf_insert hne, withoutKey_insert hne]

/-- A strike not granted on entry waits at its place, or is dropped when its expiry has come (R93, R98). -/
theorem strike_settles {s z : State} {w : Waiting} {r : KeyRec} {sched : List Entry} {fire : Fire} {q : List Waiting}
    {l : List (ReportKind × Word × Word)}
    (hz : StrikeMoved s z w.key r sched { fire with queue := insertWaiting w q } l) (hne : ∀ x ∈ q, x.key ≠ w.key)
    (hidle : grantStrikes z = z) :
    if w.expiry ≤ s.now then
      StrikeMoved s (expireOnEntry w (grantStrikes z)) w.key r.strikeGone sched { fire with queue := q }
        (l ++ [(.dropLate, keyWord w.key, w.tag)])
    else StrikeMoved s (expireOnEntry w (grantStrikes z)) w.key r sched { fire with queue := insertWaiting w q } l := by
  rw [hidle]
  have hparts := hz.parts
  have hnow : z.now = s.now := by simp [hparts]
  have hqueue : z.fire.queue = insertWaiting w q := by simp [hparts]
  split
  · next hle =>
    rw [expireOnEntry_late hqueue hne (by rw [hnow]; exact hle)]
    have hdropped := strikeDropped_moved .dropLate w.tag w.key q z
    rw [hz.1] at hdropped
    simpa [hparts] using hz.trans hdropped
  · next hle =>
    rw [expireOnEntry_waits (by rw [hnow]; exact hle)]
    exact hz

/-- A strike whose key is free, with a place open and no other strike to grant, is granted, or dropped for a hot key
(R96, R97). -/
theorem strike_granted {s z : State} {w : Waiting} {r : KeyRec} {sched : List Entry} {fire : Fire} {q : List Waiting}
    {l : List (ReportKind × Word × Word)}
    (hz : StrikeMoved s z w.key r sched { fire with queue := insertWaiting w q } l) (hne : ∀ x ∈ q, x.key ≠ w.key)
    (hbusy : ∀ x ∈ q, (s.key x.key).free = false) (hfree : r.free = true) (hplace : fire.count < s.shadow.fireBudget) :
    (r.heat < s.heat.hot →
      StrikeMoved s (expireOnEntry w (grantStrikes z)) w.key
        { r with
          state := .firing, duty := 16, reduced := false, note := some w.serial
          timer := some (s.now + 100 * (s.curveRow w.level).width) }
        sched { queue := q, count := fire.count + 1 } l) ∧
      (s.heat.hot ≤ r.heat →
        StrikeMoved s (expireOnEntry w (grantStrikes z)) w.key r.strikeGone sched { fire with queue := q }
          (l ++ [(.dropHot, keyWord w.key, w.tag)])) := by
  obtain ⟨before, after, hq, hins⟩ := insertWaiting_split w q
  have hparts := hz.parts
  have hqueue : z.fire.queue = before ++ w :: after := by simp [hparts, hins]
  have hzbusy : ∀ x ∈ before ++ after, (z.key x.key).free = false := fun x hx => by
    rw [hz.2.1 _ (hne x (hq ▸ hx))]
    exact hbusy x (hq ▸ hx)
  have hzne : ∀ x ∈ before ++ after, x.key ≠ w.key := fun x hx => hne x (hq ▸ hx)
  have hzfree : (z.key w.key).free = true := by rw [hz.1]; exact hfree
  have hzplace : z.fire.count < z.shadow.fireBudget := by simpa [hparts] using hplace
  have hzheat : z.heat = s.heat := by simp [hparts]
  have hout : w ∉ q := fun h => hne w h rfl
  refine ⟨fun hcool => ?_, fun hhot => ?_⟩
  · have hgrant := grantStrikes_moved hqueue (fun x hx => hzbusy x (List.mem_append_left _ hx)) hzne hzfree
      (by rw [hz.1, hzheat]; exact hcool) hzplace (.inl hzbusy)
    have hgone : expireOnEntry w (grantStrikes z) = grantStrikes z :=
      expireOnEntry_gone (by simpa [hgrant.parts, ← hq] using hout)
    have hmoved := hz.trans hgrant.strike
    rw [hgone, hq]
    have hcurve : z.curveRow w.level = s.curveRow w.level := by simp [State.curveRow, hparts]
    have hrec : z.grantedAt z.now w = { r with
        state := .firing, duty := 16, reduced := false, note := some w.serial
        timer := some (s.now + 100 * (s.curveRow w.level).width) } := by
      rw [State.grantedAt, hz.1, hcurve]
      simp [hparts]
    rw [hrec] at hmoved
    simpa [hparts] using hmoved
  · have hdrop := grantStrikes_hot hqueue hzne hzbusy hzfree (by rw [hz.1, hzheat]; exact hhot) hzplace
    have hdropped := strikeDropped_moved .dropHot w.tag w.key (before ++ after) z
    rw [← hdrop, ← hq] at hdropped
    have hgone : expireOnEntry w (grantStrikes z) = grantStrikes z :=
      expireOnEntry_gone (by simpa [hdropped.parts] using hout)
    rw [hz.1] at hdropped
    rw [hgone]
    simpa [hparts] using hz.trans hdropped

/-- A free key is REST (R101). -/
theorem free_rest {r : KeyRec} (h : r.free = true) : r.state = .rest := by
  simp only [KeyRec.free, Bool.and_eq_true, decide_eq_true_eq] at h
  exact h.1

/-! ## The one due entry (R91, R92) -/

theorem dispatchLoop_later {s : State} (h : ∀ x ∈ s.sched, s.now < x.due) (n : Nat) : dispatchLoop n s = s := by
  cases n with
  | zero => rfl
  | succ n =>
    unfold dispatchLoop
    cases hs : s.sched with
    | nil => rfl
    | cons e rest => exact if_neg (Nat.not_le.mpr (h e (by simp [hs])))

/-- The one due entry is handed on, and the rest are later. -/
theorem onScheduleDispatch_one {y z : State} {e : Entry} {rest : List Entry} (hd : y.dispatches = true)
    (hs : y.sched = e :: rest) (hdue : e.due ≤ y.now) (hz : dispatchEntry e (setSched rest y) = z)
    (hnow : z.now = y.now) (hsub : ∀ x ∈ z.sched, x ∈ rest) (hlater : ∀ x ∈ rest, y.now < x.due) :
    onScheduleDispatch y = z := by
  have hloop : dispatchLoop y.sched.length y = dispatchLoop rest.length (dispatchEntry e (setSched rest y)) := by
    rw [hs, List.length_cons, dispatchLoop, hs]
    exact if_pos hdue
  rw [onScheduleDispatch, if_pos hd, hloop, hz]
  exact dispatchLoop_later (fun x hx => by rw [hnow]; exact hlater x (hsub x hx)) _

/-- A row that dispatches the one due entry. -/
theorem dispatch_row {s : State} {t : Instant} {e : Entry} {rest : List Entry} (hr : s.rst = false)
    (hd : s.dispatches = true) (hs : s.sched = e :: rest) (hdue : e.due ≤ s.at t) (hlater : ∀ x ∈ rest, s.at t < x.due) :
    ∃ y, Seen s t y ∧
      ∀ z, dispatchEntry e (setSched rest y) = z → z.now = y.now → (∀ x ∈ z.sched, x ∈ rest) →
        exec (.scheduleDispatch t) s = .next (drivePins z) := by
  obtain ⟨y, hy, hrow, -⟩ := partRow_seen (t := t) hr
  have hnow : y.now = s.at t := by simp [seen_parts hy]
  refine ⟨y, hy, fun z hz hznow hsub => ?_⟩
  have hone := onScheduleDispatch_one (y := y) (by rw [State.dispatches, (seen_clock hy).1]; exact hd)
    (by simp [seen_parts hy, hs]) (by rw [hnow]; exact hdue) hz hznow hsub (by rw [hnow]; exact hlater)
  rw [← hone]
  exact hrow onScheduleDispatch

/-- A row whose effect moved one key, the schedule and the queue on. -/
theorem StrikeMoved.row {s y z : State} {t : Instant} {k : Key} {r : KeyRec} {sched : List Entry} {fire : Fire}
    {l : List (ReportKind × Word × Word)} (hy : Seen s t y) (h : StrikeMoved y z k r sched fire l) :
    s.raisedExactly (drivePins z) l ∧ (drivePins z).key k = r ∧ (∀ k', k' ≠ k → (drivePins z).key k' = s.key k') ∧
      drivePins z = { s.withBook (drivePins z) with sched := sched, keys := (drivePins z).keys, fire := fire } := by
  obtain ⟨hkey, hother, hraised, honly, hframe⟩ := h
  refine ⟨?_, (drivePins_key z k).trans hkey,
    fun k' hk => (drivePins_key z k').trans ((hother k' hk).trans (by simp [seen_parts hy])), frame_of_row hy ?_⟩
  · unfold State.raisedExactly at *
    rw [show y.report = s.report by simp [seen_parts hy], show y.track = s.track by simp [seen_parts hy]] at hraised
    exact hraised
  · generalize z.keys = keys, z.report = report, z.updates = updates at *
    subst hframe
    apply state_ext
    case clock => apply clock_ext <;> simp [seen_clock hy, seen_owed hy]
    case arb => simpa using seen_arb_eq hy
    case shadow => simpa using seen_shadow_eq hy
    case report => simpa [OnlyRaised, seen_parts hy] using honly
    all_goals simp [seen_parts hy]

/-- The record of a key that a RELEASE of a serial has reached (R108, R109). -/
theorem takeRelease_moved (k : Key) (serial : Byte) (s : State) :
    KeyMoved s (takeRelease k serial s) k
      (if (s.key k).state = .locked then s.key k
      else if (s.key k).note = some serial then
        if (s.key k).state = .holding ∧ (s.key k).timer = none then
          (s.key k).releasing (s.now + Config.unit * s.shadow.recovery)
        else { s.key k with releaseOwed := true }
      else if (s.key k).nextNote = some serial ∧ ((s.key k).state = .firing ∨ (s.key k).state = .holding) then
        { s.key k with nextOwed := true }
      else s.key k) s.fire := by
  have hsame : KeyMoved s s k (s.key k) s.fire := ⟨rfl, fun _ _ => rfl, rfl⟩
  have howed := updKey_moved k (fun r => { r with releaseOwed := true }) s
  by_cases hn : (s.key k).note = some serial
  · cases hk : (s.key k).state with
    | locked => simpa [takeRelease, hn, hk] using hsame
    | rest => simpa [takeRelease, hn, hk] using howed
    | firing => simpa [takeRelease, hn, hk] using howed
    | releasing => simpa [takeRelease, hn, hk] using howed
    | holding =>
      have hreleased := toReleasing_moved_sounding (k := k) (s := s) (by simp [hk])
      cases ht : (s.key k).timer with
      | none => simpa [takeRelease, hn, hk, ht] using hreleased
      | some expiry => simpa [takeRelease, hn, hk, ht] using howed
  · by_cases hnext : (s.key k).nextNote = some serial ∧ ((s.key k).state = .firing ∨ (s.key k).state = .holding)
    · have hmoved := updKey_moved k (fun r => { r with nextOwed := true }) s
      have hlive : (s.key k).state ≠ .locked := by rcases hnext.2 with h | h <;> simp [h]
      simpa [takeRelease, hn, hnext, hlive] using hmoved
    · simpa [takeRelease, hn, hnext] using hsame

/-! ## A MOVE handed to its pedal (R135, R139) -/

theorem handMove_fault {p : Pedal} {m : Move} {s : State} (h : (s.pedals.pedal p).motion = .fault)
    (hnone : s.pedals.link = .idle → choosePedal s.pedals = none) : handMove p m s = s := by
  have hput : putMove p m s = s := if_pos h
  rw [handMove, hput]
  by_cases hl : s.pedals.link = .idle
  · exact linkSend_none (hnone hl)
  · exact linkSend_busy hl

theorem handMove_waits {p : Pedal} {m : Move} {s : State} (h : (s.pedals.pedal p).motion ≠ .fault)
    (hl : s.pedals.link ≠ .idle) : handMove p m s = updPedal p (fun r => { r with waiting := some m }) s := by
  rw [handMove, putMove_live h]
  exact linkSend_busy hl

theorem handMove_sends {p : Pedal} {m : Move} {s : State} (h : (s.pedals.pedal p).motion ≠ .fault)
    (hl : s.pedals.link = .idle) (hnone : choosePedal s.pedals = none) :
    handMove p m s = setLink (.sending { pedal := p, depth := m.depth } s.now none)
      (updPedal p (fun r => { r with waiting := none }) (updPedal p (fun r => { r with waiting := some m }) s)) := by
  rw [handMove, putMove_live h]
  refine linkSend_only (by simpa using hl) (by rw [updPedal_pedal, if_pos rfl]) fun q hq => ?_
  rw [updPedal_pedal, if_neg hq]
  exact choosePedal_none.mp hnone q

/-- A row whose entry went without effect. -/
theorem setSched_row {s y : State} {t : Instant} (hy : Seen s t y) (rest : List Entry) :
    s.raisedNone (drivePins (setSched rest y)) ∧
      drivePins (setSched rest y) = { s.withBook (drivePins (setSched rest y)) with sched := rest } := by
  rw [hy]
  exact ⟨rfl, rfl⟩

/-- A MOVE handed to its pedal touches the records and the link. -/
theorem handMove_frame (p : Pedal) (m : Move) (s : State) :
    handMove p m s = { s with
      pedals := { s.pedals with recs := (handMove p m s).pedals.recs, link := (handMove p m s).pedals.link }
      updates := (handMove p m s).updates } := by
  have hput : SameUnit s.pedals (putMove p m s).pedals := by
    unfold putMove
    split <;> rfl
  have hsent := linkSend_pedals (putMove p m s)
  apply state_ext
  case pedals =>
    unfold handMove
    unfold SameUnit at hput
    rw [hput] at hsent
    exact hsent
  all_goals simp

/-- A row that dispatched a MOVE. -/
theorem move_row {s y z : State} {t : Instant} {rest : List Entry} {link : Link} (hy : Seen s t y)
    (hz : z = { y with
      sched := rest, pedals := { s.pedals with recs := z.pedals.recs, link := link }, updates := z.updates }) :
    s.raisedNone (drivePins z) ∧ drivePins z = { s.withBook (drivePins z) with
      sched := rest, pedals := { s.pedals with recs := (drivePins z).pedals.recs, link := link } } := by
  have hreport : z.report = y.report := by rw [hz]
  refine ⟨by simp [State.raisedNone, hreport, seen_parts hy], ?_⟩
  refine frame_of_decode (track := s.track) (expr := s.expr) (cue := s.cue) hy (.of_eq hreport) ?_
  rw [drivePins_pedals]
  generalize z.pedals.recs = recs, z.updates = updates at *
  subst hz
  apply state_ext
  case clock => simpa using seen_clock_eq hy
  all_goals simp [seen_parts hy]

end Sys2Proof.Machine

open Sys2Proof Sys2Proof.Machine

/-- Settles O40: the one entry is dispatched (`dispatch_row`); a RELEASE by `takeRelease_moved`, a MOVE by the cases of
`handMove`, a STRIKE by the channel's state (`strikeJoins_waits`, `strikeJoins_sounds`, `strikeJoins_released`), and then
granted (`strike_granted`) or not (`strike_settles`). -/
theorem dueEntryIsDispatched : Obligations.due_entry_is_dispatched := by
  refine ⟨?rows, ?order⟩
  case order =>
    intro w q before hq
    exact insertWaiting_sorted hq
  intro t e rest s hr hd hs hdue hlater releasing idle
  obtain ⟨y, hy, hrow⟩ := dispatch_row hr hd hs hdue hlater
  have hkeys : ∀ k, y.key k = s.key k := by simp [seen_parts hy]
  have hnow : y.now = s.at t := by simp [seen_parts hy]
  have hrecovery : y.shadow.recovery = s.shadow.recovery := (seen_shadow hy).2.2.2.2.2.2.2.1 _
  refine ⟨fun k serial hact => ?release, fun p depth hact => ?move, fun k level serial hact => ?strike⟩
  case release =>
    intro r
    have hmoved := takeRelease_moved k serial (setSched rest y)
    have hrow := hrow (takeRelease k serial (setSched rest y)) (by simp [dispatchEntry, hact]) (by simp)
      (by simp)
    have hall := (setSched_moved rest k y).trans hmoved.strike
    obtain ⟨hraised, hkey, hother, hframe⟩ := hall.row hy
    refine ⟨_, hrow, hraised, hkey.trans ?_, hother, ?_⟩
    · have hk : (setSched rest y).key k = r := hkeys k
      simp only [hk, setSched_keeps, hnow, hrecovery]
      rfl
    · have hfire : (setSched rest y).fire = s.fire := by simp [seen_parts hy]
      rw [hfire] at hframe
      exact hframe
  case move =>
    intro moved
    have hpedals : (setSched rest y).pedals = s.pedals := by simp [seen_parts hy]
    have hthen : (setSched rest y).now = s.at t := by simp [hnow]
    have hrow := hrow (handMove p { depth := depth, due := e.due } (setSched rest y)) (by simp [dispatchEntry, hact])
      (by simp) (by simp)
    have hmoved : ∀ waiting link z, handMove p { depth := depth, due := e.due } (setSched rest y) = z →
        z.pedals.link = link → (∀ q, z.pedals.pedal q =
          if q = p then { s.pedals.pedal p with waiting := waiting } else s.pedals.pedal q) → moved waiting link := by
      intro waiting link z hz hlink hrecs
      subst hlink
      have hshape := handMove_frame p { depth := depth, due := e.due } (setSched rest y)
      rw [hz, hpedals] at hshape
      obtain ⟨hnone, hframe⟩ := move_row (rest := rest) hy hshape
      rw [hz] at hrow
      refine ⟨_, hrow, hnone, ?_, fun q hq => ?_, hframe⟩
      · rw [drivePins_pedals, hrecs, if_pos rfl]
      · rw [drivePins_pedals, hrecs, if_neg hq]
    refine ⟨fun hfault hnone => ?fault, fun hlive hbusy => ?waits, fun hlive hidle hnone => ?sends⟩
    case fault =>
      rw [handMove_fault (by rw [hpedals]; exact hfault) (by rw [hpedals]; exact hnone)] at hrow
      exact ⟨_, hrow, setSched_row hy rest⟩
    case waits =>
      refine hmoved _ _ _ (handMove_waits (by rw [hpedals]; exact hlive) (by rw [hpedals]; exact hbusy))
        (by rw [updPedal_pedals, hpedals])
        fun q => ?_
      rw [updPedal_pedal, hpedals]
    case sends =>
      refine hmoved _ _ _ (handMove_sends (by rw [hpedals]; exact hlive) (by rw [hpedals]; exact hidle)
        (by rw [hpedals]; exact hnone)) (by rw [hthen]; rfl) fun q => ?_
      rw [setLink_pedal, updPedal_pedal, updPedal_pedal, updPedal_pedal, hpedals]
      by_cases hq : q = p <;> simp [hq]
  case strike =>
    intro r number others w replaced after waits hothers
    have hfire : y.fire = s.fire := by simp [seen_parts hy]
    have hheat : y.heat = s.heat := by simp [seen_parts hy]
    have hnats := (seen_shadow hy).2.2.2.2.2.2.2.1
    have hbudget : y.shadow.fireBudget = s.shadow.fireBudget := hnats _
    have hlimit : y.shadow.lateLimit = s.shadow.lateLimit := hnats _
    have hcurve : ∀ l, y.curveRow l = s.curveRow l := fun l => by
      rw [hy]
      rfl
    have hdispatch : dispatchEntry e (setSched rest y) = enterQueue w (setSched rest y) := by
      simp [dispatchEntry, hact, w, hlimit, Config.unit]
    have hne : ∀ x ∈ others, x.key ≠ w.key := fun x hx => withoutKey_ne (k := k) hx
    have hafter : ∀ z l kr sched fire, enterQueue w (setSched rest y) = z → (∀ x ∈ sched, x ∈ rest) →
        StrikeMoved y z k kr sched fire (replaced ++ l) → after l kr sched fire := by
      intro z l kr sched fire hz hsub hmoved
      have hparts := hmoved.parts
      exact ⟨_, hrow z (hdispatch.trans hz) (by simp [hparts]) (by simpa [hparts] using hsub), hmoved.row hy⟩
    have hqueued : StrikeMoved y (strikeQueued w (setSched rest y)) k r rest
        { s.fire with queue := insertWaiting w others } replaced := by
      have hmoved := (setSched_moved rest k y).trans (strikeQueued_moved w (setSched rest y))
      have hkey : (setSched rest y).key w.key = r := hkeys k
      have hthen : (setSched rest y).fire = s.fire := by simp [hfire]
      rw [hkey, hthen] at hmoved
      exact hmoved
    by_cases hlocked : r.state = .locked
    · have hsame : enterQueue w (setSched rest y) = setSched rest y :=
        if_pos ((congrArg KeyRec.state (hkeys k)).trans hlocked)
      have hnot : ∀ st, st ≠ .locked → r.state ≠ st := fun st h h' => h (h'.symm.trans hlocked)
      have hbusy : r.free ≠ true := fun h => hnot .rest (by decide) (free_rest h)
      refine ⟨fun h => absurd h hbusy, fun h => absurd h hbusy, fun h => ?_, fun h => ?_,
        fun h => absurd h (hnot _ (by decide)), fun _ => ⟨_, hrow _ (hdispatch.trans hsame) (by simp) (by simp),
          setSched_row hy rest⟩⟩
      · rcases h with h | h <;> exact absurd h (hnot _ (by decide))
      · rcases h with h | ⟨h, -⟩ <;> exact absurd h (hnot _ (by decide))
    have hlive : ((setSched rest y).key w.key).state ≠ .locked := by
      rw [show (setSched rest y).key w.key = r from hkeys k]
      exact hlocked
    have henter := enterQueue_eq hlive
    have hb := hqueued.parts
    obtain ⟨hbkey, -⟩ := id hqueued
    generalize strikeQueued w (setSched rest y) = b at *
    /- What follows once the channel has taken the strike and nothing is granted. -/
    have hwaits : ∀ kr sched, (∀ x ∈ sched, x ∈ rest) →
        StrikeMoved b (strikeJoins k serial b) k kr sched b.fire [] → (kr.free = false ∨ s.shadow.fireBudget ≤ s.fire.count) →
        waits kr kr.strikeGone sched := by
      intro kr sched hsub hjoined hbusy
      have hmoved := hqueued.trans hjoined
      rw [List.append_nil, show b.fire = _ from hb.2.2.2.2.2.2] at hmoved
      have hz := hmoved.parts
      have hidle : grantStrikes (strikeJoins k serial b) = strikeJoins k serial b := by
        refine grantStrikes_idle ?_
        by_cases hplace : s.fire.count < s.shadow.fireBudget
        · refine .inl fun x hx => ?_
          rcases of_mem_insertWaiting (show x ∈ insertWaiting w others by simpa [hz] using hx) with rfl | hx
          · rw [hmoved.1]
            exact hbusy.resolve_right (Nat.not_le.mpr hplace)
          · rw [hmoved.2.1 _ (hne x hx), hkeys]
            exact hothers hplace x hx
        · exact .inr (by simpa [hz, hb, hbudget] using hplace)
      have hsettled := strike_settles (w := w) (q := others) hmoved hne hidle
      rw [← henter, hnow] at hsettled
      dsimp only [waits]
      split
      · next hle =>
        rw [if_pos hle] at hsettled
        exact hafter _ _ _ _ _ rfl hsub hsettled
      · next hle =>
        rw [if_neg hle] at hsettled
        exact hafter _ _ _ _ _ rfl hsub (by rw [List.append_nil]; exact hsettled)
    have hended : b.noteEnded k b.sched = s.noteEnded k rest := by
      unfold State.noteEnded
      rw [hbkey, hb.2.2.2.2.2.1]
    have hbsched : b.sched = rest := hb.2.2.2.2.2.1
    have hsub : ∀ x ∈ s.noteEnded k rest, x ∈ rest := fun x hx => noteEnded_subset hx
    have hgrants : r.free = true → s.fire.count < s.shadow.fireBudget →
        (r.heat < y.heat.hot → StrikeMoved y (enterQueue w (setSched rest y)) k
          { r with
            state := .firing, duty := 16, reduced := false, note := some serial, releaseOwed := false
            timer := some (s.at t + 100 * (s.curveRow level).width) } rest
          { queue := others, count := s.fire.count + 1 } replaced) ∧
        (y.heat.hot ≤ r.heat → StrikeMoved y (enterQueue w (setSched rest y)) k
          { r with note := none, releaseOwed := false } rest { s.fire with queue := others }
          (replaced ++ [(.dropHot, number, e.tag)])) := by
      intro hfree hplace
      have hrest : r.state = .rest := free_rest hfree
      have hmoved := hqueued.trans
        (strikeJoins_waits (k := k) (serial := serial) (s := b) (.inl (by rwa [hbkey])))
      rw [hbkey, hbsched, hb.2.2.2.2.2.2, List.append_nil] at hmoved
      have hbusy : ∀ x ∈ others, (y.key x.key).free = false := fun x hx => by
        rw [hkeys]
        exact hothers hplace x hx
      obtain ⟨hcool, hhot⟩ := strike_granted (w := w) (q := others) hmoved hne hbusy hfree (by rw [hbudget]; exact hplace)
      have hgone : ({ r with note := some serial, releaseOwed := false } : KeyRec).strikeGone =
          { r with note := none, releaseOwed := false } := by simp [KeyRec.strikeGone, hrest]
      rw [← henter, hnow, hcurve] at hcool
      rw [← henter, hgone] at hhot
      exact ⟨hcool, hhot⟩
    refine ⟨fun hfree hplace hcool => ?granted, fun hfree hplace hhot => ?hot, fun hstate hbusy => ?queued,
      fun hstate => ?sounding, fun hstate htimer => ?released, fun hstate => absurd hstate hlocked⟩
    case granted =>
      have hmoved := (hgrants hfree hplace).1 (by rw [hheat]; exact hcool)
      exact hafter _ _ _ _ _ rfl (fun _ hx => hx) (by rw [List.append_nil]; exact hmoved)
    case hot =>
      have hmoved := (hgrants hfree hplace).2 (by rw [hheat]; exact hhot)
      exact hafter _ _ _ _ _ rfl (fun _ hx => hx) hmoved
    case queued =>
      have hjoined := strikeJoins_waits (k := k) (serial := serial) (s := b) (by rwa [hbkey])
      rw [hbkey, hbsched] at hjoined
      have h := hwaits _ _ (fun _ hx => hx) hjoined hbusy
      have hgone : ({ r with note := some serial, releaseOwed := false } : KeyRec).strikeGone =
          { r with note := none, releaseOwed := false } := by
        rcases hstate with h | h <;> simp [KeyRec.strikeGone, h]
      rwa [hgone] at h
    case sounding =>
      have hjoined := strikeJoins_sounds (k := k) (serial := serial) (s := b) (by rwa [hbkey])
      rw [hbkey, hended] at hjoined
      have hbusy : ({ r with nextNote := some serial, nextOwed := false, releaseOwed := true } : KeyRec).free = false := by
        rcases hstate with h | ⟨h, -⟩ <;> simp [KeyRec.free, h]
      have h := hwaits _ _ hsub hjoined (.inl hbusy)
      have hgone : ({ r with nextNote := some serial, nextOwed := false, releaseOwed := true } : KeyRec).strikeGone =
          { r with nextNote := none, nextOwed := false, releaseOwed := true } := by
        rcases hstate with h | ⟨h, -⟩ <;> simp [KeyRec.strikeGone, h]
      rwa [hgone] at h
    case released =>
      have hjoined := strikeJoins_released (k := k) (serial := serial) (s := b) (by rwa [hbkey]) (by rwa [hbkey])
      rw [hbkey, hended, show b.now = s.at t by simp [hb, hnow], show b.shadow.recovery = s.shadow.recovery by
        simp [hb, hrecovery]] at hjoined
      exact hwaits _ _ hsub hjoined (.inl (by simp [KeyRec.free]))
end
